-- ==== Sys2Proof/Word.lean ====
section
/-! DEFINITION. The element types of CORE: raw bytes, symbol codes and 6-bit values (00_scope.md R5). -/

namespace Sys2Proof

/-- A raw byte, `BYTE_W` = 8 bits (00_scope.md R5). -/
abbrev Byte := BitVec 8

/-- A symbol code, `SYM_W` = 8 bits (00_scope.md R5, 30_encoding.md R65). -/
abbrev Symbol := BitVec 8

/-- A value, `VAL_W` = 6 bits: an index into the alphabet (00_scope.md R5). -/
abbrev Val := BitVec 6

end Sys2Proof
end

