-- ==== Sys2Proof/Machine/Operands.lean ====
section
/-! DEFINITION. How a group is cut into operands and put together again (30_encoding.md R60 to R66): the source's
shift-and-mask formulas (41_encoder.md R92 to R94, 42_decoder.md R117 to R119), and beside them the slices of the
formats G24, G18, G12, Q24, Q18, Q12. -/

namespace Sys2Proof.Machine

/-- `v0 = b0 >> 2` (R92, R93, R94). -/
def encV0 (b0 : Byte) : Val := (b0 >>> 2).setWidth 6

/-- `v1 = ((b0 & 0x3) << 4) | (b1 >> 4)` (R92, R93). -/
def encV1 (b0 b1 : Byte) : Val := (((b0 &&& 0x3#8) <<< 4) ||| (b1 >>> 4)).setWidth 6

/-- `v1 = (b0 & 0x3) << 4` of the one-byte group (R94). -/
def encV1Last (b0 : Byte) : Val := ((b0 &&& 0x3#8) <<< 4).setWidth 6

/-- `v2 = ((b1 & 0xF) << 2) | (b2 >> 6)` (R92). -/
def encV2 (b1 b2 : Byte) : Val := (((b1 &&& 0xF#8) <<< 2) ||| (b2 >>> 6)).setWidth 6

/-- `v2 = (b1 & 0xF) << 2` of the two-byte group (R93). -/
def encV2Last (b1 : Byte) : Val := ((b1 &&& 0xF#8) <<< 2).setWidth 6

/-- `v3 = b2 & 0x3F` (R92). -/
def encV3 (b2 : Byte) : Val := (b2 &&& 0x3F#8).setWidth 6

/-- `b0 = (v0 << 2) | (v1 >> 4)`, in 8 bits (R117, R118, R119; R124). -/
def decB0 (v0 v1 : Val) : Byte := (v0.setWidth 8 <<< 2) ||| (v1.setWidth 8 >>> 4)

/-- `b1 = ((v1 & 0xF) << 4) | (v2 >> 2)`, in 8 bits (R117, R118; R124). -/
def decB1 (v1 v2 : Val) : Byte := ((v1.setWidth 8 &&& 0xF#8) <<< 4) ||| (v2.setWidth 8 >>> 2)

/-- `b2 = ((v2 & 0x3) << 6) | v3`, in 8 bits (R117; R124). -/
def decB2 (v2 v3 : Val) : Byte := ((v2.setWidth 8 &&& 0x3#8) <<< 6) ||| v3.setWidth 8

/-- Format G24, input view: `W = b0 ‖ b1 ‖ b2` (R61). -/
def wordG24 (b0 b1 b2 : Byte) : BitVec 24 := (b0 ++ b1 ++ b2).cast rfl

/-- Format G18, input view: `W = b0 ‖ b1 ‖ 0b00` (R62). -/
def wordG18 (b0 b1 : Byte) : BitVec 18 := (b0 ++ b1 ++ 0#2).cast rfl

/-- Format G12, input view: `W = b0 ‖ 0b0000` (R63). -/
def wordG12 (b0 : Byte) : BitVec 12 := (b0 ++ 0#4).cast rfl

/-- Format Q24, input view: `W = v0 ‖ v1 ‖ v2 ‖ v3` (R64). -/
def wordQ24 (v0 v1 v2 v3 : Val) : BitVec 24 := (v0 ++ v1 ++ v2 ++ v3).cast rfl

/-- Format Q18, input view: `W = v0 ‖ v1 ‖ v2` (R64). -/
def wordQ18 (v0 v1 v2 : Val) : BitVec 18 := (v0 ++ v1 ++ v2).cast rfl

/-- Format Q12, input view: `W = v0 ‖ v1` (R64). -/
def wordQ12 (v0 v1 : Val) : BitVec 12 := (v0 ++ v1).cast rfl

/-- The bits `lo + n - 1` down to `lo` of a word: the spec's `W[hi:lo]` (00_scope.md section 6). -/
def slice {w : Nat} (lo n : Nat) (x : BitVec w) : BitVec n := x.extractLsb' lo n

end Sys2Proof.Machine
end

