-- ==== Sys2Proof/Config.lean ====
section
/-! DEFINITION. What is fixed for one CORE (00_scope.md R5: the alphabet, `LEN_W`, the bus bases) and the values the
spec leaves open, as constants without a body (93_implementation_defined.md U2, U3, U4). -/

namespace Sys2Proof

/-- The two units (10_state.md R10). -/
inductive UnitId where
  | enc
  | dec
deriving DecidableEq, Repr

/-- The configuration of one CORE (00_scope.md R5; 10_state.md R10 (a), R11, R12). No step writes it. -/
structure Config where
  /-- `ALPHA[0..63]` (10_state.md R11). -/
  alpha : Vector Symbol 64
  /-- `PAD` (10_state.md R12). -/
  pad : Symbol
  /-- `LEN_W`, the width of `ENC.ILEN` (00_scope.md R5; 10_state.md R14). -/
  lenW : Nat
  /-- `BASE_ENC`: where a platform places ENC's registers; no rule uses it (00_scope.md R5). -/
  baseEnc : Nat
  /-- `BASE_DEC`: where a platform places DEC's registers; no rule uses it (00_scope.md R5). -/
  baseDec : Nat
deriving DecidableEq, Repr

/-- Well-formedness, the premise of every rule (40_alphabet.md R81 (b) and (c), as: the padding symbol and the 64
entries are pairwise distinct; R81 (a) holds by the type of `alpha`) and `LEN_W >= 2` (00_scope.md R5). -/
abbrev Config.WF (c : Config) : Prop :=
  (c.pad :: c.alpha.toList).Nodup ∧ 2 ≤ c.lenW

/-- Free value: what the `n`-th unspecified read of a buffer element returns (93_implementation_defined.md U2, U4; log
entry 3). -/
opaque Config.freeElem : Nat → BitVec 8

/-- Free value: what the `n`-th unspecified read of an output length returns, before it is cut to the register's width
(93_implementation_defined.md U2; log entry 3). -/
opaque Config.freeLen : Nat → Nat

/-- Free value: what element `i` of the input buffer of a unit holds after the `r`-th reset until the host writes it:
one unknown for each element, stable until written (93_implementation_defined.md U3; log entry 2). -/
opaque Config.unwritten : Nat → UnitId → Nat → BitVec 8

end Sys2Proof
end

