-- ==== Sys2Proof/Syntax.lean ====
section
/-! DEFINITION. The operations of CORE, one constructor for each row of spec/opcode_table.json, and the forms in which the
spec writes them down: the tuple a bus would carry (43_host_interface.md R150) and the words of the formats of
30_encoding.md R60. -/

namespace Sys2Proof

/-- The class of a symbol code: the answer of `CLASS` (40_alphabet.md R83; 30_encoding.md R69). -/
inductive SymClass where
  | val (v : Val)
  | padc
  | unk
deriving DecidableEq, Repr

/-- One operation of CORE (30_encoding.md R67; opcode_table.json). A unit step carries the operands its rule names,
which fetching the group reads from the unit's input buffer. -/
inductive Instr where
  /-- `SYMOF(v)` (R82). -/
  | symof (v : Val)
  /-- `CLASS(s)` (R83). -/
  | cls (c : Symbol)
  /-- `PADSYM` (R84). -/
  | padsym
  /-- `ENC.START` (R91). -/
  | encStart
  /-- `ENC3` on `(b0, b1, b2)` (R92). -/
  | enc3 (b0 b1 b2 : Byte)
  /-- `ENC2` on `(b0, b1)` (R93). -/
  | enc2 (b0 b1 : Byte)
  /-- `ENC1` on `(b0)` (R94). -/
  | enc1 (b0 : Byte)
  /-- `ENC.FINISH` (R95). -/
  | encFinish
  /-- `DEC.START` (R115). -/
  | decStart
  /-- `DEC.LENFAIL` (R116). -/
  | decLenfail
  /-- `DEC4` on the values of four value symbols (R117). -/
  | dec4 (v0 v1 v2 v3 : Val)
  /-- `DEC3` on the values of three value symbols (R118). -/
  | dec3 (v0 v1 v2 : Val)
  /-- `DEC2` on the values of two value symbols (R119). -/
  | dec2 (v0 v1 : Val)
  /-- `DEC.GRPERR` on the four classes and `last` (R120). -/
  | decGrperr (k0 k1 k2 k3 : SymClass) (last : Bool)
  /-- `DEC.FINISH` (R121). -/
  | decFinish
  /-- `H.WR_IBUF(U, i, e)` (R141). -/
  | hWrIbuf (u : UnitId) (i : Nat) (e : BitVec 8)
  /-- `H.WR_ILEN(U, n)` (R142). -/
  | hWrIlen (u : UnitId) (n : Nat)
  /-- `H.START(U)`: a write of the byte `d` to `U.CTRL`; START when bit 0 is 1, nothing when it is 0 (R143, R20). -/
  | hStart (u : UnitId) (d : BitVec 8)
  /-- `H.RD_STATUS(U)` (R144). -/
  | hRdStatus (u : UnitId)
  /-- `H.RD_OLEN(U)` (R145). -/
  | hRdOlen (u : UnitId)
  /-- `H.RD_OBUF(U, i)` (R146). -/
  | hRdObuf (u : UnitId) (i : Nat)
  /-- `H.RD_ILEN(U)` (R147). -/
  | hRdIlen (u : UnitId)
  /-- `H.RD_IBUF(U, i)` (R147). -/
  | hRdIbuf (u : UnitId) (i : Nat)
  /-- The pseudo-operation `ENCODE x` (R151). -/
  | pEncode (x : List Byte)
  /-- The pseudo-operation `DECODE s` (R152). -/
  | pDecode (x : List Symbol)
  /-- `SYM.0` (A), R85. -/
  | sym0
  /-- `SYM.1` (B), R85. -/
  | sym1
  /-- `SYM.2` (C), R85. -/
  | sym2
  /-- `SYM.3` (D), R85. -/
  | sym3
  /-- `SYM.4` (E), R85. -/
  | sym4
  /-- `SYM.5` (F), R85. -/
  | sym5
  /-- `SYM.6` (G), R85. -/
  | sym6
  /-- `SYM.7` (H), R85. -/
  | sym7
  /-- `SYM.8` (I), R85. -/
  | sym8
  /-- `SYM.9` (J), R85. -/
  | sym9
  /-- `SYM.10` (K), R85. -/
  | sym10
  /-- `SYM.11` (L), R85. -/
  | sym11
  /-- `SYM.12` (M), R85. -/
  | sym12
  /-- `SYM.13` (N), R85. -/
  | sym13
  /-- `SYM.14` (O), R85. -/
  | sym14
  /-- `SYM.15` (P), R85. -/
  | sym15
  /-- `SYM.16` (Q), R85. -/
  | sym16
  /-- `SYM.17` (R), R85. -/
  | sym17
  /-- `SYM.18` (S), R85. -/
  | sym18
  /-- `SYM.19` (T), R85. -/
  | sym19
  /-- `SYM.20` (U), R85. -/
  | sym20
  /-- `SYM.21` (V), R85. -/
  | sym21
  /-- `SYM.22` (W), R85. -/
  | sym22
  /-- `SYM.23` (X), R85. -/
  | sym23
  /-- `SYM.24` (Y), R85. -/
  | sym24
  /-- `SYM.25` (Z), R85. -/
  | sym25
  /-- `SYM.26` (a), R85. -/
  | sym26
  /-- `SYM.27` (b), R85. -/
  | sym27
  /-- `SYM.28` (c), R85. -/
  | sym28
  /-- `SYM.29` (d), R85. -/
  | sym29
  /-- `SYM.30` (e), R85. -/
  | sym30
  /-- `SYM.31` (f), R85. -/
  | sym31
  /-- `SYM.32` (g), R85. -/
  | sym32
  /-- `SYM.33` (h), R85. -/
  | sym33
  /-- `SYM.34` (i), R85. -/
  | sym34
  /-- `SYM.35` (j), R85. -/
  | sym35
  /-- `SYM.36` (k), R85. -/
  | sym36
  /-- `SYM.37` (l), R85. -/
  | sym37
  /-- `SYM.38` (m), R85. -/
  | sym38
  /-- `SYM.39` (n), R85. -/
  | sym39
  /-- `SYM.40` (o), R85. -/
  | sym40
  /-- `SYM.41` (p), R85. -/
  | sym41
  /-- `SYM.42` (q), R85. -/
  | sym42
  /-- `SYM.43` (r), R85. -/
  | sym43
  /-- `SYM.44` (s), R85. -/
  | sym44
  /-- `SYM.45` (t), R85. -/
  | sym45
  /-- `SYM.46` (u), R85. -/
  | sym46
  /-- `SYM.47` (v), R85. -/
  | sym47
  /-- `SYM.48` (w), R85. -/
  | sym48
  /-- `SYM.49` (x), R85. -/
  | sym49
  /-- `SYM.50` (y), R85. -/
  | sym50
  /-- `SYM.51` (z), R85. -/
  | sym51
  /-- `SYM.52` (0), R85. -/
  | sym52
  /-- `SYM.53` (1), R85. -/
  | sym53
  /-- `SYM.54` (2), R85. -/
  | sym54
  /-- `SYM.55` (3), R85. -/
  | sym55
  /-- `SYM.56` (4), R85. -/
  | sym56
  /-- `SYM.57` (5), R85. -/
  | sym57
  /-- `SYM.58` (6), R85. -/
  | sym58
  /-- `SYM.59` (7), R85. -/
  | sym59
  /-- `SYM.60` (8), R85. -/
  | sym60
  /-- `SYM.61` (9), R85. -/
  | sym61
  /-- `SYM.62` (+), R85. -/
  | sym62
  /-- `SYM.63` (/), R85. -/
  | sym63
  /-- `SYM.PAD` (=), R85. -/
  | symPad
  /-- `SYM.UNK`: a code that is none of the 65 of the classic alphabet (R83, R71). -/
  | symUnk (c : Symbol)
deriving DecidableEq, Repr

/-- A location of one unit: a register number, or an element of one of the two buffer windows (10_state.md R22). -/
inductive Place where
  | reg (n : Nat)
  | ibuf (i : Nat)
  | obuf (i : Nat)
deriving DecidableEq, Repr

/-- What an operation looks like before it is decoded. `read` and `write` are the tuples of 43_host_interface.md R150;
`ctrl8`, `sym8`, `g24`, `g18`, `g12`, `q24`, `q18`, `q12` are words of the formats of 30_encoding.md R60 (STATUS8 is
only read, never decoded); `classes` is a row of the table of R70; `lenfail` and `finish` have no encoding and stand for
the selection by state (R95, R116, R121); the lookups and the two pseudo-operations are in the spec's own notation. -/
inductive Code where
  | read (u : UnitId) (p : Place)
  | write (u : UnitId) (p : Place) (d : Nat)
  | ctrl8 (u : UnitId) (w : BitVec 8)
  | sym8 (w : Symbol)
  | g24 (w : BitVec 24)
  | g18 (w : BitVec 18)
  | g12 (w : BitVec 12)
  | q24 (w : BitVec 24)
  | q18 (w : BitVec 18)
  | q12 (w : BitVec 12)
  | classes (k0 k1 k2 k3 : SymClass) (last : Bool)
  | lenfail
  | finish (u : UnitId)
  | lookupSymof (v : Val)
  | lookupClass (c : Symbol)
  | lookupPad
  | scriptEncode (x : List Byte)
  | scriptDecode (x : List Symbol)
deriving DecidableEq, Repr

/-- Why a code is no operation. Raised by `decode`; `step` then refuses (safe: nothing can be proved of the access). -/
inductive CodeError where
  /-- A register number above 3 (20_memory.md R49; 93_implementation_defined.md U6). -/
  | noSuchRegister
  /-- Data that do not fit the 8 bits of a buffer element or of `U.CTRL` (20_memory.md R47). -/
  | dataTooWide
  /-- A G18 word whose two constant bits are not 00 (30_encoding.md R62). -/
  | g18TailNotZero
  /-- A G12 word whose four constant bits are not 0000 (30_encoding.md R63). -/
  | g12TailNotZero
  /-- A class pattern that selects DEC4, DEC3 or DEC2 and not DEC.GRPERR (30_encoding.md R70). -/
  | patternIsNoError
deriving DecidableEq, Repr

/-- What a code decodes to: an operation with a row of the table, or one of the two accesses that have a defined
effect and no row. -/
inductive Decoded where
  | instr (i : Instr)
  /-- A write in the wrong direction, or one to `U.CTRL` format with bit 0 = 0: nothing changes (10_state.md R20, R21,
  R22; 43_host_interface.md R146). -/
  | ignoredWrite (u : UnitId) (p : Place)
  /-- A read of `U.CTRL`: returns 0 (10_state.md R20). -/
  | ctrlRead (u : UnitId)
deriving DecidableEq, Repr

/-- One line of the host's script (43_host_interface.md R150): an operation, `POLL U`, or one of the parts into which
the pseudo-operations expand (R151, R152). -/
inductive Line where
  | op (c : Code)
  /-- `POLL U`: repeat `RD U.STATUS` until the value read has `ST = DONE` (R150). -/
  | poll (u : UnitId)
  /-- The test `if st[3:2] != 0` of DECODE on the status that ended the POLL (R152). -/
  | judge
  /-- `m = RD U.OLEN`, after which the host reads elements `0 .. m-1` (R151, R152). -/
  | gather (u : UnitId)
  /-- `r[i] = RD U.OBUF[i]` (R151, R152). -/
  | take (u : UnitId) (i : Nat)
  /-- `result: r` (R151, R152). -/
  | deliver (u : UnitId)
deriving DecidableEq, Repr

/-- Who takes a step (00_scope.md section 9 item 1; 44_sequencing_and_access.md R157). -/
inductive Agent where
  | host
  | enc
  | dec
  | reset
deriving DecidableEq, Repr

end Sys2Proof
end

