-- ==== Sys2Proof/Machine/Alphabet.lean ====
section
/-! DEFINITION. The classic alphabet (40_alphabet.md R85), the default configuration of CORE, and the three lookups of an
alphabet (R80, R82, R83, R84). -/

namespace Sys2Proof.Machine

/-- The codes of the classic alphabet, values 0 to 63 in order (R85). -/
def classicCodes : List Symbol :=
    [0x41#8, 0x42#8, 0x43#8, 0x44#8, 0x45#8, 0x46#8, 0x47#8, 0x48#8, 0x49#8, 0x4A#8, 0x4B#8, 0x4C#8, 0x4D#8, 0x4E#8, 0x4F#8, 0x50#8]
    ++ [0x51#8, 0x52#8, 0x53#8, 0x54#8, 0x55#8, 0x56#8, 0x57#8, 0x58#8, 0x59#8, 0x5A#8, 0x61#8, 0x62#8, 0x63#8, 0x64#8, 0x65#8, 0x66#8]
    ++ [0x67#8, 0x68#8, 0x69#8, 0x6A#8, 0x6B#8, 0x6C#8, 0x6D#8, 0x6E#8, 0x6F#8, 0x70#8, 0x71#8, 0x72#8, 0x73#8, 0x74#8, 0x75#8, 0x76#8]
    ++ [0x77#8, 0x78#8, 0x79#8, 0x7A#8, 0x30#8, 0x31#8, 0x32#8, 0x33#8, 0x34#8, 0x35#8, 0x36#8, 0x37#8, 0x38#8, 0x39#8, 0x2B#8, 0x2F#8]

/-- The padding symbol of the classic alphabet, "=" (R85). -/
def classicPad : Symbol := 0x3D#8

/-- The classic alphabet, `LEN_W` = 16 (the suggested default, 00_scope.md R5) and bus bases 0 (log entry 5). -/
def classicConfig : Config :=
  ⟨⟨⟨classicCodes⟩, rfl⟩, classicPad, 16, 0, 0⟩

/-- The value of a code in the classic alphabet, if it is one of the 64 (R85). -/
def classicIndex (c : Symbol) : Option Nat := classicCodes.findIdx? (· == c)

/-- `SYMOF(v) = ALPHA[v]` (R82). -/
def symOf (c : Config) (v : Val) : Symbol := c.alpha[v.toNat]'v.isLt

/-- `CLASS(s)`: the padding symbol first, then the value whose entry is `s`, else unknown (R83). -/
def classOf (c : Config) (s : Symbol) : SymClass :=
  if s = c.pad then .padc
  else
    match c.alpha.toList.findIdx? (· == s) with
    | some v => .val (BitVec.ofNat 6 v)
    | none => .unk

/-- `PADSYM = PAD` (R84). -/
def padSym (c : Config) : Symbol := c.pad

end Sys2Proof.Machine
end

