-- ==== Sys2Proof/Machine/Flags.lean ====
section
/-! DEFINITION. The one flag computation CORE has: what a group of four classes does to `DEC.PADERR` and `DEC.UNKERR`,
and which group step it selects (10_state.md R19; 30_encoding.md R70; 42_decoder.md R120). ENC has no flags (R19). -/

namespace Sys2Proof.Machine

/-- Whether a class is `PADC`. -/
def isPad : SymClass → Bool
  | .padc => true
  | _ => false

/-- Whether a class is `UNK`. -/
def isUnk : SymClass → Bool
  | .unk => true
  | _ => false

/-- `anyP`: some `kj = PADC` (R70, R120). -/
def anyPad (k0 k1 k2 k3 : SymClass) : Bool := isPad k0 || isPad k1 || isPad k2 || isPad k3

/-- `padlegal = (not anyP) or (last and k0 != PADC and k1 != PADC and k3 = PADC)` (R70, R120). -/
def padLegal (k0 k1 k2 k3 : SymClass) (last : Bool) : Bool :=
  !anyPad k0 k1 k2 k3 || (last && !isPad k0 && !isPad k1 && isPad k3)

/-- `hasunk`: some `kj = UNK` (R70, R120). -/
def hasUnk (k0 k1 k2 k3 : SymClass) : Bool := isUnk k0 || isUnk k1 || isUnk k2 || isUnk k3

/-- The four group steps of DEC (R70). -/
inductive GroupStep where
  | dec4
  | dec3
  | dec2
  | grperr
deriving DecidableEq, Repr

/-- The group step that a class pattern selects (R70): with legal padding and no unknown symbol, DEC4 when no class is
`P`, DEC2 when `k2` and `k3` are, DEC3 when only `k3` is; DEC.GRPERR in every other case. -/
def selectGroup (k0 k1 k2 k3 : SymClass) (last : Bool) : GroupStep :=
  if padLegal k0 k1 k2 k3 last && !hasUnk k0 k1 k2 k3 then
    if !anyPad k0 k1 k2 k3 then .dec4
    else if isPad k2 then .dec2
    else .dec3
  else .grperr

/-- `if not padlegal then DEC.PADERR <- 1`; a flag already set stays set (R120). -/
def nextPaderr (old : Bool) (k0 k1 k2 k3 : SymClass) (last : Bool) : Bool :=
  old || !padLegal k0 k1 k2 k3 last

/-- `if hasunk then DEC.UNKERR <- 1`; a flag already set stays set (R120). -/
def nextUnkerr (old : Bool) (k0 k1 k2 k3 : SymClass) : Bool := old || hasUnk k0 k1 k2 k3

end Sys2Proof.Machine
end

