-- ==== Sys2Proof/Machine/Sizes.lean ====
section
/-! DEFINITION. The widths of the length registers and the sizes of the buffers (10_state.md R14, R23). -/

namespace Sys2Proof.Machine

/-- The width of `U.ILEN`: `LEN_W` for ENC, `LEN_W + 1` for DEC (R14). -/
def ilenWidth (c : Config) : UnitId → Nat
  | .enc => c.lenW
  | .dec => c.lenW + 1

/-- The width of `U.OLEN`, `LEN_W + 1` bits for both units (R14). -/
def olenWidth (c : Config) : Nat := c.lenW + 1

/-- The number of elements of `U.IBUF` (R23): `2^LEN_W - 1` for ENC, `2^(LEN_W+1) - 1` for DEC. -/
def ibufSize (c : Config) (u : UnitId) : Nat := 2 ^ ilenWidth c u - 1

/-- The number of elements of `U.OBUF` (R23): `4 * ceil((2^LEN_W - 1) / 3)` for ENC, `3 * ((2^(LEN_W+1) - 1) div 4)` for
DEC. -/
def obufSize (c : Config) : UnitId → Nat
  | .enc => 4 * ((2 ^ c.lenW - 1 + 2) / 3)
  | .dec => 3 * ((2 ^ (c.lenW + 1) - 1) / 4)

/-- The locations that exist (R22, R23): registers 0 to 3 and the elements of the two windows. -/
def placeExists (c : Config) (u : UnitId) : Place → Bool
  | .reg n => decide (n ≤ 3)
  | .ibuf i => decide (i < ibufSize c u)
  | .obuf i => decide (i < obufSize c u)

end Sys2Proof.Machine
end

