-- ==== Sys2Proof/WellFormed.lean ====
section
/-! DEFINITION. Which operations the spec gives a meaning: operands in the ranges their rules name
(43_host_interface.md R141, R142, R146, R147, R151, R152), and for the two default rows the condition that makes them
the default (30_encoding.md R70; 40_alphabet.md R83). -/

namespace Sys2Proof

/-- `i.wf c`: the operands of `i` are in range for a CORE of configuration `c`. -/
def Instr.wf (c : Config) : Instr → Bool
  | .hWrIbuf u i _ => decide (i < Machine.ibufSize c u)
  | .hWrIlen u n => decide (n < 2 ^ Machine.ilenWidth c u)
  | .hRdObuf u i => decide (i < Machine.obufSize c u)
  | .hRdIbuf u i => decide (i < Machine.ibufSize c u)
  | .pEncode x => decide (x.length < 2 ^ Machine.ilenWidth c .enc)
  | .pDecode x => decide (x.length < 2 ^ Machine.ilenWidth c .dec)
  | .decGrperr k0 k1 k2 k3 last => decide (Machine.selectGroup k0 k1 k2 k3 last = .grperr)
  | .symUnk s => decide (Machine.classicIndex s = none ∧ s ≠ Machine.classicPad)
  | .symof _ | .cls _ | .padsym | .encStart | .enc3 _ _ _ | .enc2 _ _ | .enc1 _ | .encFinish | .decStart | .decLenfail
  | .dec4 _ _ _ _ | .dec3 _ _ _ | .dec2 _ _ | .decFinish | .hStart _ _ | .hRdStatus _ | .hRdOlen _ | .hRdIlen _
  | .sym0 | .sym1 | .sym2 | .sym3 | .sym4 | .sym5 | .sym6 | .sym7 | .sym8 | .sym9 | .sym10 | .sym11 | .sym12 | .sym13 | .sym14 | .sym15
  | .sym16 | .sym17 | .sym18 | .sym19 | .sym20 | .sym21 | .sym22 | .sym23 | .sym24 | .sym25 | .sym26 | .sym27 | .sym28 | .sym29 | .sym30 | .sym31
  | .sym32 | .sym33 | .sym34 | .sym35 | .sym36 | .sym37 | .sym38 | .sym39 | .sym40 | .sym41 | .sym42 | .sym43 | .sym44 | .sym45 | .sym46 | .sym47
  | .sym48 | .sym49 | .sym50 | .sym51 | .sym52 | .sym53 | .sym54 | .sym55 | .sym56 | .sym57 | .sym58 | .sym59 | .sym60 | .sym61 | .sym62 | .sym63
  | .symPad => true

end Sys2Proof
end

