-- ==== Sys2Proof/Decode.lean ====
section
/-! DEFINITION. From codes to operations and back. CORE decodes no instruction words (30_encoding.md section 1; R67: "There
is no operation code anywhere"); what it decodes is the tuple of a host access (43_host_interface.md R150) and data in the
formats of 30_encoding.md R60. `decode` is total on every code and rejects by name. -/

namespace Sys2Proof

open Machine

/-- The rows `SYM.0` to `SYM.63` in the order of their values (40_alphabet.md R85). -/
def symRows : List Instr :=
    ([.sym0, .sym1, .sym2, .sym3, .sym4, .sym5, .sym6, .sym7, .sym8, .sym9, .sym10, .sym11, .sym12, .sym13, .sym14, .sym15] : List Instr)
    ++ ([.sym16, .sym17, .sym18, .sym19, .sym20, .sym21, .sym22, .sym23, .sym24, .sym25, .sym26, .sym27, .sym28, .sym29, .sym30, .sym31] : List Instr)
    ++ ([.sym32, .sym33, .sym34, .sym35, .sym36, .sym37, .sym38, .sym39, .sym40, .sym41, .sym42, .sym43, .sym44, .sym45, .sym46, .sym47] : List Instr)
    ++ ([.sym48, .sym49, .sym50, .sym51, .sym52, .sym53, .sym54, .sym55, .sym56, .sym57, .sym58, .sym59, .sym60, .sym61, .sym62, .sym63] : List Instr)

/-- Format SYM8: the row of a symbol code (opcode_table.json; 30_encoding.md R65, R69). -/
def decodeSym8 (w : Symbol) : Instr :=
  if w = classicPad then .symPad
  else
    match classicIndex w with
    | some v => symRows.getD v .symPad
    | none => .symUnk w

/-- A write of the tuple `(U, place, data)` (R150): the access that each place of 10_state.md R22 stands for. -/
def decodeWrite (u : UnitId) (p : Place) (d : Nat) : Except CodeError Decoded :=
  match p with
  | .reg 0 => if d < 256 then .ok (.instr (.hStart u (BitVec.ofNat 8 d))) else .error .dataTooWide
  | .reg 1 => .ok (.ignoredWrite u (.reg 1))
  | .reg 2 => .ok (.instr (.hWrIlen u d))
  | .reg 3 => .ok (.ignoredWrite u (.reg 3))
  | .reg _ => .error .noSuchRegister
  | .ibuf i => if d < 256 then .ok (.instr (.hWrIbuf u i (BitVec.ofNat 8 d))) else .error .dataTooWide
  | .obuf i => .ok (.ignoredWrite u (.obuf i))

/-- A read of the tuple `(U, place)` (R150). -/
def decodeRead (u : UnitId) (p : Place) : Except CodeError Decoded :=
  match p with
  | .reg 0 => .ok (.ctrlRead u)
  | .reg 1 => .ok (.instr (.hRdStatus u))
  | .reg 2 => .ok (.instr (.hRdIlen u))
  | .reg 3 => .ok (.instr (.hRdOlen u))
  | .reg _ => .error .noSuchRegister
  | .ibuf i => .ok (.instr (.hRdIbuf u i))
  | .obuf i => .ok (.instr (.hRdObuf u i))

/-- Format CTRL8 at unit `u`: bit 0 is START, bits 7:1 are ignored (10_state.md R20; opcode rows ENC.START, DEC.START). -/
def decodeCtrl8 (u : UnitId) (w : BitVec 8) : Decoded :=
  if w.getLsbD 0 then .instr (match u with | .enc => .encStart | .dec => .decStart)
  else .ignoredWrite u (.reg 0)

/-- The decoder: total on every code (30_encoding.md R61 to R65, R67, R70; 43_host_interface.md R150). -/
def decode : Code → Except CodeError Decoded
  | .read u p => decodeRead u p
  | .write u p d => decodeWrite u p d
  | .ctrl8 u w => .ok (decodeCtrl8 u w)
  | .sym8 w => .ok (.instr (decodeSym8 w))
  | .g24 w => .ok (.instr (.enc3 (slice 16 8 w) (slice 8 8 w) (slice 0 8 w)))
  | .g18 w => if slice 0 2 w = 0#2 then .ok (.instr (.enc2 (slice 10 8 w) (slice 2 8 w))) else .error .g18TailNotZero
  | .g12 w => if slice 0 4 w = 0#4 then .ok (.instr (.enc1 (slice 4 8 w))) else .error .g12TailNotZero
  | .q24 w => .ok (.instr (.dec4 (slice 18 6 w) (slice 12 6 w) (slice 6 6 w) (slice 0 6 w)))
  | .q18 w => .ok (.instr (.dec3 (slice 12 6 w) (slice 6 6 w) (slice 0 6 w)))
  | .q12 w => .ok (.instr (.dec2 (slice 6 6 w) (slice 0 6 w)))
  | .classes k0 k1 k2 k3 last =>
    if selectGroup k0 k1 k2 k3 last = .grperr then .ok (.instr (.decGrperr k0 k1 k2 k3 last)) else .error .patternIsNoError
  | .lenfail => .ok (.instr .decLenfail)
  | .finish .enc => .ok (.instr .encFinish)
  | .finish .dec => .ok (.instr .decFinish)
  | .lookupSymof v => .ok (.instr (.symof v))
  | .lookupClass c => .ok (.instr (.cls c))
  | .lookupPad => .ok (.instr .padsym)
  | .scriptEncode x => .ok (.instr (.pEncode x))
  | .scriptDecode x => .ok (.instr (.pDecode x))

/-- The encoder, from the same tables: the code of each operation. -/
def encode : Instr → Code
  | .symof v => .lookupSymof v
  | .cls c => .lookupClass c
  | .padsym => .lookupPad
  | .encStart => .ctrl8 .enc 0x01#8
  | .enc3 b0 b1 b2 => .g24 (wordG24 b0 b1 b2)
  | .enc2 b0 b1 => .g18 (wordG18 b0 b1)
  | .enc1 b0 => .g12 (wordG12 b0)
  | .encFinish => .finish .enc
  | .decStart => .ctrl8 .dec 0x01#8
  | .decLenfail => .lenfail
  | .dec4 v0 v1 v2 v3 => .q24 (wordQ24 v0 v1 v2 v3)
  | .dec3 v0 v1 v2 => .q18 (wordQ18 v0 v1 v2)
  | .dec2 v0 v1 => .q12 (wordQ12 v0 v1)
  | .decGrperr k0 k1 k2 k3 last => .classes k0 k1 k2 k3 last
  | .decFinish => .finish .dec
  | .hWrIbuf u i e => .write u (.ibuf i) e.toNat
  | .hWrIlen u n => .write u (.reg 2) n
  | .hStart u d => .write u (.reg 0) d.toNat
  | .hRdStatus u => .read u (.reg 1)
  | .hRdOlen u => .read u (.reg 3)
  | .hRdObuf u i => .read u (.obuf i)
  | .hRdIlen u => .read u (.reg 2)
  | .hRdIbuf u i => .read u (.ibuf i)
  | .pEncode x => .scriptEncode x
  | .pDecode x => .scriptDecode x
  | .sym0 => .sym8 0x41#8
  | .sym1 => .sym8 0x42#8
  | .sym2 => .sym8 0x43#8
  | .sym3 => .sym8 0x44#8
  | .sym4 => .sym8 0x45#8
  | .sym5 => .sym8 0x46#8
  | .sym6 => .sym8 0x47#8
  | .sym7 => .sym8 0x48#8
  | .sym8 => .sym8 0x49#8
  | .sym9 => .sym8 0x4A#8
  | .sym10 => .sym8 0x4B#8
  | .sym11 => .sym8 0x4C#8
  | .sym12 => .sym8 0x4D#8
  | .sym13 => .sym8 0x4E#8
  | .sym14 => .sym8 0x4F#8
  | .sym15 => .sym8 0x50#8
  | .sym16 => .sym8 0x51#8
  | .sym17 => .sym8 0x52#8
  | .sym18 => .sym8 0x53#8
  | .sym19 => .sym8 0x54#8
  | .sym20 => .sym8 0x55#8
  | .sym21 => .sym8 0x56#8
  | .sym22 => .sym8 0x57#8
  | .sym23 => .sym8 0x58#8
  | .sym24 => .sym8 0x59#8
  | .sym25 => .sym8 0x5A#8
  | .sym26 => .sym8 0x61#8
  | .sym27 => .sym8 0x62#8
  | .sym28 => .sym8 0x63#8
  | .sym29 => .sym8 0x64#8
  | .sym30 => .sym8 0x65#8
  | .sym31 => .sym8 0x66#8
  | .sym32 => .sym8 0x67#8
  | .sym33 => .sym8 0x68#8
  | .sym34 => .sym8 0x69#8
  | .sym35 => .sym8 0x6A#8
  | .sym36 => .sym8 0x6B#8
  | .sym37 => .sym8 0x6C#8
  | .sym38 => .sym8 0x6D#8
  | .sym39 => .sym8 0x6E#8
  | .sym40 => .sym8 0x6F#8
  | .sym41 => .sym8 0x70#8
  | .sym42 => .sym8 0x71#8
  | .sym43 => .sym8 0x72#8
  | .sym44 => .sym8 0x73#8
  | .sym45 => .sym8 0x74#8
  | .sym46 => .sym8 0x75#8
  | .sym47 => .sym8 0x76#8
  | .sym48 => .sym8 0x77#8
  | .sym49 => .sym8 0x78#8
  | .sym50 => .sym8 0x79#8
  | .sym51 => .sym8 0x7A#8
  | .sym52 => .sym8 0x30#8
  | .sym53 => .sym8 0x31#8
  | .sym54 => .sym8 0x32#8
  | .sym55 => .sym8 0x33#8
  | .sym56 => .sym8 0x34#8
  | .sym57 => .sym8 0x35#8
  | .sym58 => .sym8 0x36#8
  | .sym59 => .sym8 0x37#8
  | .sym60 => .sym8 0x38#8
  | .sym61 => .sym8 0x39#8
  | .sym62 => .sym8 0x2B#8
  | .sym63 => .sym8 0x2F#8
  | .symPad => .sym8 0x3D#8
  | .symUnk c => .sym8 c

/-- The code that a bare table word of `nbits` bits is read as (log entry 9). Eight bits: an exact row (SYM.0 to SYM.63,
SYM.PAD) first, then the masked rows in the table's order (CTRL8: ENC.START; STATUS8: a read of `ENC.STATUS`), then the
default row. Wider words: G24, and for 18 and 12 bits the G format when its constant bits are 0, else the Q format. -/
def tableCode (nbits w : Nat) : Option Code :=
  if w < 2 ^ nbits then
    match nbits with
    | 8 =>
      let s := BitVec.ofNat 8 w
      if s = classicPad ∨ classicIndex s ≠ none then some (.sym8 s)
      else if s.getLsbD 0 then some (.ctrl8 .enc s)
      else if s &&& 0xF0#8 = 0#8 then some (.read .enc (.reg 1))
      else some (.sym8 s)
    | 24 => some (.g24 (BitVec.ofNat 24 w))
    | 18 => some (if w % 4 = 0 then .g18 (BitVec.ofNat 18 w) else .q18 (BitVec.ofNat 18 w))
    | 12 => some (if w % 16 = 0 then .g12 (BitVec.ofNat 12 w) else .q12 (BitVec.ofNat 12 w))
    | 16 =>
      if w < 2 ^ 12 then some (if w % 16 = 0 then .g12 (BitVec.ofNat 12 w) else .q12 (BitVec.ofNat 12 w)) else none
    | _ => none
  else none

/-- The instruction that a table word decodes to: `tableCode`, then `decode`. -/
def decodeTableWord (nbits w : Nat) : Option Instr :=
  match tableCode nbits w with
  | none => none
  | some c =>
    match decode c with
    | .ok (.instr i) => some i
    | _ => none

end Sys2Proof
end

