-- ==== Sys2Proof/Machine/State.lean ====
section
/-! DEFINITION. The state of CORE (10_state.md R10 to R26) and of the model's two drivers, the host's script and the order
of turns; the reasons a step can stop; the state after reset (R25). Plain data only. -/

namespace Sys2Proof.Machine

/-- `U.ST` (10_state.md R17): the three legal values; the value 3 is never produced and has no constructor. -/
inductive UnitSt where
  | idle
  | busy
  | done
deriving DecidableEq, Repr

/-- The three kinds of decode error (60_exceptions.md R160). `U.ERR` (10_state.md R18) holds `none` for OK. -/
inductive DecErr where
  | malformedLength
  | misplacedPadding
  | unknownSymbol
deriving DecidableEq, Repr

/-- The elements of one buffer that have been written, as (index, element) pairs with strictly rising indices. An index
that is not listed has not been written since reset (10_state.md R25; 93_implementation_defined.md U3, U4). -/
abbrev Memory := List Host.Cell

/-- The state of one unit (10_state.md R10, R14, R15, R17, R18, R23). Lengths and pointers are natural numbers ("Pointer
arithmetic is arithmetic of natural numbers", R15); their widths are invariants. -/
structure CodecUnit where
  /-- `U.ST` (R17). -/
  st : UnitSt
  /-- `U.ERR` (R18). -/
  err : Option DecErr
  /-- `U.ILEN` (R14). -/
  ilen : Nat
  /-- `U.OLEN` (R14). -/
  olen : Nat
  /-- `U.RP` (R15). -/
  rp : Nat
  /-- `U.WP` (R15). -/
  wp : Nat
  /-- `U.IBUF` (R23). -/
  ibuf : Memory
  /-- `U.OBUF` (R23). -/
  obuf : Memory
deriving DecidableEq, Repr

/-- What an access or a lookup returned to the one who asked (43_host_interface.md R144 to R147, R151, R152;
40_alphabet.md R82 to R84). -/
inductive Answer where
  /-- A symbol code: SYMOF, PADSYM. -/
  | symbol (s : Symbol)
  /-- A class: CLASS. -/
  | cls (k : SymClass)
  /-- An 8-bit register: STATUS, CTRL. -/
  | reg8 (b : BitVec 8)
  /-- A length register: ILEN, OLEN. -/
  | len (n : Nat)
  /-- A buffer element: IBUF, OBUF. -/
  | elem (e : BitVec 8)
  /-- The result of ENCODE (R151). -/
  | encoded (r : List Symbol)
  /-- The result `Ok(r)` of DECODE (R152). -/
  | decoded (r : List Byte)
  /-- The result `Err(kind)` of DECODE (R152). -/
  | failed (e : DecErr)
deriving DecidableEq, Repr

/-- The host (43_host_interface.md R140): the accesses it has still to make, the last value it got, and the elements
`r[0 ..]` it has gathered (R151, R152). The model's own state, outside CORE (log entry 1). -/
structure HostSide where
  script : List Line
  answer : Option Answer
  gathered : List (BitVec 8)
deriving DecidableEq, Repr

/-- The state (10_state.md R10): the configuration, the two units, DEC's two flags (R19); and the model's own: the host,
the turns still to be taken in an order given from outside (20_memory.md R50; log entry 1), how many free values have
been used, and how many resets there have been (log entries 2 and 3). -/
structure State where
  /-- `ALPHABET` and `LEN_W` (R10 (a), R11, R12). -/
  cfg : Config
  /-- ENC (R10 (b)). -/
  enc : CodecUnit
  /-- DEC (R10 (c)). -/
  dec : CodecUnit
  /-- `DEC.PADERR` (R19). -/
  paderr : Bool
  /-- `DEC.UNKERR` (R19). -/
  unkerr : Bool
  host : HostSide
  turns : List Agent
  freeCount : Nat
  resets : Nat
deriving DecidableEq, Repr

/-- Why the machine stops with a fault. All are safe: no behaviour of the hardware is claimed there. -/
inductive Fault where
  /-- A unit step is executed in a state in which it is not enabled: the spec's step relation has no such step
  (44_sequencing_and_access.md R157). Raised by the meanings of the unit steps. -/
  | stepNotEnabled
  /-- A unit is BUSY and none of its steps is enabled: only in states no run reaches (41_encoder.md R96, 42_decoder.md
  R122). Raised by a unit's turn. -/
  | noStepEnabled (u : UnitId)
  /-- A unit step would access a buffer element that does not exist: only in states no run reaches (20_memory.md R41,
  R42). Raised by the meanings of the group steps. -/
  | missesBuffer
deriving DecidableEq, Repr

/-- Why the machine refuses. All are safe. -/
inductive Refusal where
  /-- An operation without a meaning, by its mnemonic. -/
  | notModelled (mnemonic : String)
  /-- The configuration breaks 40_alphabet.md R81 or `LEN_W >= 2`: 93_implementation_defined.md U1 "refuse". Raised by
  every meaning. -/
  | illFormedConfiguration
  /-- An access to an index or register that does not exist: 93_implementation_defined.md U6 "refuse". Raised by the host
  accesses. -/
  | noSuchLocation
  /-- A length that the register cannot hold, or an input longer than the buffer (43_host_interface.md R142, R151, R152;
  91_not_in_source.md N7). Raised by H.WR_ILEN, ENCODE, DECODE. -/
  | operandOutOfRange
  /-- A line of the host's script that names a unit step: the unit takes its steps itself, the host cannot order one
  (43_host_interface.md R140; 44_sequencing_and_access.md R157). Raised by the host's turn. -/
  | notAHostAccess
  /-- A code that is no operation. Raised by a turn that meets one in the host's script. -/
  | undecodable (e : CodeError)
deriving DecidableEq, Repr

/-- What a meaning answers. -/
abbrev Res := Host.Outcome State Fault Refusal

/-- A unit after reset (R25): IDLE, OK, lengths and pointers 0, every buffer element unwritten. -/
def CodecUnit.reset : CodecUnit := ⟨.idle, none, 0, 0, 0, 0, [], []⟩

/-- The state after reset of a CORE with configuration `c` (R25; 70_reset_and_hazards.md R180). -/
def State.resetWith (c : Config) : State :=
  ⟨c, .reset, .reset, false, false, ⟨[], none, []⟩, [], 0, 0⟩

/-- The state after reset of the default CORE: the classic alphabet (40_alphabet.md R85) and `LEN_W` = 16. -/
def State.reset : State := State.resetWith classicConfig

end Sys2Proof.Machine
end

