-- ==== Sys2Proof/Machine/Ops.lean ====
section
/-! DEFINITION. The named operations that the meanings share: buffers, units, answers, START, completion, raising a decode
error, the group steps, reset, fetching a unit's next step, the host's script and the order of turns. -/

namespace Sys2Proof.Machine

/-! Buffers (20_memory.md R40 to R42). -/

/-- The element at index `i`, or nothing when it has not been written since reset (R41, R54). -/
def Memory.read : Memory → Nat → Option (BitVec 8)
  | [], _ => none
  | (k, e) :: m, i => if i = k then some e else Memory.read m i

/-- `B[i] <- e`, keeping the indices strictly rising (R42). -/
def Memory.write : Memory → Nat → BitVec 8 → Memory
  | [], i, e => [(i, e)]
  | (k, d) :: m, i, e =>
    if i < k then (i, e) :: (k, d) :: m
    else if i = k then (i, e) :: m
    else (k, d) :: Memory.write m i e

/-- `MemWrite(B, i, n, (e0, ..., e(n-1)))`: `B[i+k] <- ek` (R42). -/
def Memory.writeAll : Memory → Nat → List (BitVec 8) → Memory
  | m, _, [] => m
  | m, i, e :: es => Memory.writeAll (Memory.write m i e) (i + 1) es

/-- The canonical form: indices strictly rising. An unlisted index has no value, so no entry can repeat it. -/
def Memory.wf : Memory → Bool
  | [] => true
  | [_] => true
  | (i, _) :: (k, e) :: m => decide (i < k) && Memory.wf ((k, e) :: m)

/-- Every listed index lies in a buffer of `n` elements (10_state.md R23). -/
def Memory.within (m : Memory) (n : Nat) : Bool := m.all fun c => decide (c.1 < n)

/-! Units. -/

/-- Unit `u` (10_state.md R10). -/
def State.unit (s : State) : UnitId → CodecUnit
  | .enc => s.enc
  | .dec => s.dec

/-- The state with unit `u` replaced. -/
def State.setUnit (s : State) : UnitId → CodecUnit → State
  | .enc, x => { s with enc := x }
  | .dec, x => { s with dec := x }

/-- The element `U.IBUF[i]`: what the host last wrote, or the unknown stable value it has held since reset (R54;
93_implementation_defined.md U3). -/
def readInput (s : State) (u : UnitId) (i : Nat) : BitVec 8 :=
  match (s.unit u).ibuf.read i with
  | some e => e
  | none => Config.unwritten s.resets u i

/-- `MemRead(U.IBUF, i, n)` (R41). -/
def memRead (s : State) (u : UnitId) (i n : Nat) : List (BitVec 8) :=
  (List.range n).map fun j => readInput s u (i + j)

/-- What START does to the registers of a unit (41_encoder.md R91; 42_decoder.md R115). -/
def CodecUnit.started (x : CodecUnit) : CodecUnit :=
  { x with rp := 0, wp := 0, olen := 0, err := none, st := .busy }

/-- What completion does: `OLEN <- n`, `ERR <- e`, `ST <- DONE` (R95, R116, R121). -/
def CodecUnit.finished (x : CodecUnit) (n : Nat) (e : Option DecErr) : CodecUnit :=
  { x with olen := n, err := e, st := .done }

/-- What a group step does: `MemWrite(OBUF, WP, ..., out)`, `RP <- RP + n`, `WP <- WP + len(out)` (R92 to R94, R117 to
R120; 44_sequencing_and_access.md R158). -/
def CodecUnit.moved (x : CodecUnit) (n : Nat) (out : List (BitVec 8)) : CodecUnit :=
  { x with obuf := x.obuf.writeAll x.wp out, rp := x.rp + n, wp := x.wp + out.length }

/-- `ST` as two bits (10_state.md R17). -/
def stBits : UnitSt → BitVec 2
  | .idle => 0#2
  | .busy => 1#2
  | .done => 2#2

/-- `ERR` as two bits (10_state.md R18; 60_exceptions.md R161). -/
def errBits : Option DecErr → BitVec 2
  | none => 0#2
  | some .malformedLength => 1#2
  | some .misplacedPadding => 2#2
  | some .unknownSymbol => 3#2

/-- The kind of an error code (60_exceptions.md R161). -/
def errOfBits (b : BitVec 2) : Option DecErr :=
  if b = 1#2 then some .malformedLength
  else if b = 2#2 then some .misplacedPadding
  else if b = 3#2 then some .unknownSymbol
  else none

/-- `U.STATUS`: `zext_8(U.ERR ‖ U.ST)` (10_state.md R21; 43_host_interface.md R144). -/
def statusByte (x : CodecUnit) : BitVec 8 := (errBits x.err ++ stBits x.st).setWidth 8

/-! What every meaning goes through. -/

/-- A CORE whose configuration is ill-formed is refused (40_alphabet.md R88; 93_implementation_defined.md U1). -/
def underConfig (s : State) (r : Res) : Res :=
  if s.cfg.WF then r else .refused .illFormedConfiguration

/-- The host (or the asker of a lookup) gets `a`; nothing of CORE changes. -/
def State.answering (s : State) (a : Answer) : State :=
  { s with host := { s.host with answer := some a } }

/-- One more free value has been used. -/
def State.useFree (s : State) : State := { s with freeCount := s.freeCount + 1 }

/-- Answer `a` and change nothing else (20_memory.md R48). -/
def answerWith (a : Answer) (s : State) : Res := underConfig s (.next (s.answering a))

/-- `CLASS(c)` as an answer (40_alphabet.md R83). -/
def answerClassOf (c : Symbol) (s : State) : Res := answerWith (.cls (classOf s.cfg c)) s

/-! START, completion, decode errors, reset. -/

/-- The START command of unit `u`: ignored while BUSY (R91, R115, 43_host_interface.md R148). -/
def startUnit (u : UnitId) (s : State) : State :=
  if (s.unit u).st = .busy then s
  else
    match u with
    | .enc => { s with enc := s.enc.started }
    | .dec => { s with dec := s.dec.started, paderr := false, unkerr := false }

/-- Raising a decode error in DEC: `DEC.ERR <- code(kind)`, `DEC.OLEN <- 0`, `DEC.ST <- DONE`, "and that is all"
(60_exceptions.md R166). There is no return from it: the next accepted DEC.START clears it (R168). -/
def raiseDecodeError (kind : DecErr) (s : State) : State := { s with dec := s.dec.finished 0 (some kind) }

/-- Reset (70_reset_and_hazards.md R180, R181): both units as R25 says, the configuration untouched, every buffer element
unknown anew. The host and its script are outside CORE and keep what they hold. -/
def applyReset (s : State) : State :=
  { s with enc := .reset, dec := .reset, paderr := false, unkerr := false, resets := s.resets + 1 }

/-! The group steps. -/

/-- ENC3 is enabled: `ENC.ST = BUSY` and `ENC.ILEN - ENC.RP >= 3` (R92). -/
def enc3Enabled (s : State) : Bool := decide (s.enc.st = .busy ∧ s.enc.rp + 3 ≤ s.enc.ilen)

/-- ENC2, ENC1, ENC.FINISH are enabled: `ENC.ST = BUSY` and `ENC.ILEN - ENC.RP = k` for `k` = 2, 1, 0 (R93, R94, R95). -/
def encLeft (k : Nat) (s : State) : Bool := decide (s.enc.st = .busy ∧ s.enc.rp + k = s.enc.ilen)

/-- A group step of DEC is enabled: `DEC.ST = BUSY`, `DEC.ILEN mod 4 = 0`, `DEC.RP < DEC.ILEN` (R67, R157). -/
def decGroupEnabled (s : State) : Bool :=
  decide (s.dec.st = .busy ∧ s.dec.ilen % 4 = 0 ∧ s.dec.rp < s.dec.ilen)

/-- `last`: `DEC.RP + 4 = DEC.ILEN` (R70, R122). -/
def lastGroup (s : State) : Bool := decide (s.dec.rp + 4 = s.dec.ilen)

/-- A group step of ENC that takes `n` bytes and puts out `out`, when it is enabled and its accesses lie in the buffers. -/
def encGroup (enabled : Bool) (n : Nat) (out : List Symbol) (s : State) : Res :=
  underConfig s <|
    if enabled then
      if s.enc.rp + n ≤ ibufSize s.cfg .enc ∧ s.enc.wp + out.length ≤ obufSize s.cfg .enc then
        .next { s with enc := s.enc.moved n out }
      else .fault .missesBuffer
    else .fault .stepNotEnabled

/-- A group step of DEC that puts out `out` and leaves the flags at `p` and `k`, when it is enabled and its accesses lie
in the buffers. -/
def decGroup (enabled : Bool) (out : List Byte) (p k : Bool) (s : State) : Res :=
  underConfig s <|
    if enabled then
      if s.dec.rp + 4 ≤ ibufSize s.cfg .dec ∧ s.dec.wp + out.length ≤ obufSize s.cfg .dec then
        .next { s with dec := s.dec.moved 4 out, paderr := p, unkerr := k }
      else .fault .missesBuffer
    else .fault .stepNotEnabled

/-- A finishing step: to `t` when it is enabled. -/
def finishing (enabled : Bool) (s t : State) : Res :=
  underConfig s (if enabled then .next t else .fault .stepNotEnabled)

/-! Host accesses. -/

/-- An access to a location that exists, or a refusal (20_memory.md R49; 93_implementation_defined.md U6). -/
def hostAccess (u : UnitId) (p : Place) (s : State) (r : Res) : Res :=
  underConfig s (if placeExists s.cfg u p then r else .refused .noSuchLocation)

/-- A write that has no effect: in the wrong direction, or to `U.CTRL` with bit 0 = 0 (10_state.md R20, R21, R22). -/
def ignoreWrite (u : UnitId) (p : Place) (s : State) : Res := hostAccess u p s (.next s)

/-- A read of `U.CTRL` returns 0 (10_state.md R20). -/
def readCtrl (u : UnitId) (s : State) : Res := hostAccess u (.reg 0) s (.next (s.answering (.reg8 0#8)))

/-! Fetching a unit's next step (what a program counter would answer: 10_state.md R16). -/

/-- The code of the step ENC takes while BUSY (41_encoder.md R96): the group at `ENC.RP` in the format that the number of
bytes left selects, or ENC.FINISH. -/
def encFetch (s : State) : Option Code :=
  let b := fun j => readInput s .enc (s.enc.rp + j)
  if s.enc.rp + 3 ≤ s.enc.ilen then some (.g24 (wordG24 (b 0) (b 1) (b 2)))
  else if s.enc.rp + 2 = s.enc.ilen then some (.g18 (wordG18 (b 0) (b 1)))
  else if s.enc.rp + 1 = s.enc.ilen then some (.g12 (wordG12 (b 0)))
  else if s.enc.rp = s.enc.ilen then some (.finish .enc)
  else none

/-- The code of a decode group from its class pattern (30_encoding.md R70): the three accepted shapes, else the pattern
itself. -/
def groupCode (k0 k1 k2 k3 : SymClass) (last : Bool) : Code :=
  match k0, k1, k2, k3, last with
  | .val v0, .val v1, .val v2, .val v3, _ => .q24 (wordQ24 v0 v1 v2 v3)
  | .val v0, .val v1, .val v2, .padc, true => .q18 (wordQ18 v0 v1 v2)
  | .val v0, .val v1, .padc, .padc, true => .q12 (wordQ12 v0 v1)
  | _, _, _, _, _ => .classes k0 k1 k2 k3 last

/-- The code of the step DEC takes while BUSY (42_decoder.md R122). -/
def decFetch (s : State) : Option Code :=
  let k := fun j => classOf s.cfg (readInput s .dec (s.dec.rp + j))
  if s.dec.ilen % 4 ≠ 0 then some .lenfail
  else if s.dec.rp < s.dec.ilen then some (groupCode (k 0) (k 1) (k 2) (k 3) (lastGroup s))
  else if s.dec.rp = s.dec.ilen then some (.finish .dec)
  else none

/-- The code of the step unit `u` takes while BUSY. -/
def unitFetch (s : State) : UnitId → Option Code
  | .enc => encFetch s
  | .dec => decFetch s

/-! The order of turns (20_memory.md R50; log entry 1). -/

/-- Who moves next: the first turn of the given order, and once that is used up a unit that is BUSY before the host. -/
def State.nextAgent (s : State) : Agent :=
  match s.turns with
  | a :: _ => a
  | [] => if s.enc.st = .busy then .enc else if s.dec.st = .busy then .dec else .host

/-- The state with that turn used up. -/
def State.popTurn (s : State) : State := { s with turns := s.turns.tail }

/-! The host's script (43_host_interface.md R150 to R152). -/

/-- The codes that the host may put in its script: accesses, lookups and pseudo-operations, and no step of a unit
(43_host_interface.md R140, R150; 44_sequencing_and_access.md R157). -/
def hostMayIssue : Code → Bool
  | .read _ _ | .write _ _ _ | .ctrl8 _ _ | .sym8 _ | .lookupSymof _ | .lookupClass _ | .lookupPad | .scriptEncode _
  | .scriptDecode _ => true
  | .g24 _ | .g18 _ | .g12 _ | .q24 _ | .q18 _ | .q12 _ | .classes _ _ _ _ _ | .lenfail | .finish _ => false

/-- The state whose script begins with `ls`. -/
def State.pushLines (s : State) (ls : List Line) : State :=
  { s with host := { s.host with script := ls ++ s.host.script } }

/-- The state whose gathered elements are `r`. -/
def State.gather (s : State) (r : List (BitVec 8)) : State := { s with host := { s.host with gathered := r } }

/-- The access that a line makes, if it makes one (R150). -/
def lineCode : Line → Option Code
  | .op c => some c
  | .poll u => some (.read u (.reg 1))
  | .judge => none
  | .gather u => some (.read u (.reg 3))
  | .take u i => some (.read u (.obuf i))
  | .deliver _ => none

/-- `POLL U` goes on until the value read has `ST = DONE` (R150). -/
def pollThen (u : UnitId) (s : State) : State :=
  match s.host.answer with
  | some (.reg8 b) => if slice 0 2 b = stBits .done then s else s.pushLines [.poll u]
  | _ => s

/-- `if st[3:2] != 0: result: Err(kind of code st[3:2])`, else the host gathers the bytes (R152). -/
def judgeThen (s : State) : State :=
  match s.host.answer with
  | some (.reg8 b) =>
    match errOfBits (slice 2 2 b) with
    | some e => s.answering (.failed e)
    | none => s.pushLines [.gather .dec]
  | _ => s

/-- With `m = RD U.OLEN`: the host reads `RD U.OBUF[i]` for `i = 0 .. m-1` and then has its result (R151, R152). -/
def gatherThen (u : UnitId) (s : State) : State :=
  match s.host.answer with
  | some (.len m) => (s.pushLines ((List.range m).map (Line.take u) ++ [.deliver u])).gather []
  | _ => s

/-- `r[i] = ` the element read (R151, R152). -/
def takeThen (s : State) : State :=
  match s.host.answer with
  | some (.elem e) => s.gather (s.host.gathered ++ [e])
  | _ => s

/-- `result: r` (R151), `result: Ok(r)` (R152). -/
def deliverThen (u : UnitId) (s : State) : State :=
  match u with
  | .enc => s.answering (.encoded s.host.gathered)
  | .dec => s.answering (.decoded s.host.gathered)

/-- What the host does after the access of a line (R150, R151, R152). -/
def lineThen : Line → State → State
  | .op _, s => s
  | .poll u, s => pollThen u s
  | .judge, s => judgeThen s
  | .gather u, s => gatherThen u s
  | .take _ _, s => takeThen s
  | .deliver u, s => deliverThen u s

/-- `WR U.IBUF[i], x[i]` for the elements of `x`, from index `i` (R151, R152). -/
def loadLines (u : UnitId) : Nat → List (BitVec 8) → List Line
  | _, [] => []
  | i, e :: x => .op (.write u (.ibuf i) e.toNat) :: loadLines u (i + 1) x

/-- The expansion of `ENCODE x` (R151). -/
def encodeScript (x : List Byte) : List Line :=
  loadLines .enc 0 x
    ++ [.op (.write .enc (.reg 2) x.length), .op (.write .enc (.reg 0) 1), .poll .enc, .gather .enc]

/-- The expansion of `DECODE s` (R152). -/
def decodeScript (x : List Symbol) : List Line :=
  loadLines .dec 0 x
    ++ [.op (.write .dec (.reg 2) x.length), .op (.write .dec (.reg 0) 1), .poll .dec, .judge]

/-! Placing a word where the next step fetches it (log entry 10). -/

/-- ENC's next group is `bs`: it stands at `ENC.RP`, it is all that is left, and ENC is BUSY and has the next turn. -/
def placeEncGroup (bs : List Byte) (s : State) : State :=
  { s with
    enc := { s.enc with st := .busy, ilen := s.enc.rp + bs.length, ibuf := s.enc.ibuf.writeAll s.enc.rp bs }
    turns := .enc :: s.turns }

/-- DEC's next group is `cs`, the last one, and DEC is BUSY and has the next turn. -/
def placeDecGroup (cs : List Symbol) (s : State) : State :=
  { s with
    dec := { s.dec with st := .busy, ilen := s.dec.rp + cs.length, ibuf := s.dec.ibuf.writeAll s.dec.rp cs }
    turns := .dec :: s.turns }

/-- The state whose very next step runs the code `c`: a group word in its unit's input buffer, every other code as the
next line of the host's script. -/
def placeCode (c : Code) (s : State) : State :=
  match c with
  | .g24 w => placeEncGroup [slice 16 8 w, slice 8 8 w, slice 0 8 w] s
  | .g18 w => placeEncGroup [slice 10 8 w, slice 2 8 w] s
  | .g12 w => placeEncGroup [slice 4 8 w] s
  | .q24 w =>
    placeDecGroup
      [symOf s.cfg (slice 18 6 w), symOf s.cfg (slice 12 6 w), symOf s.cfg (slice 6 6 w), symOf s.cfg (slice 0 6 w)] s
  | .q18 w =>
    placeDecGroup [symOf s.cfg (slice 12 6 w), symOf s.cfg (slice 6 6 w), symOf s.cfg (slice 0 6 w), padSym s.cfg] s
  | .q12 w => placeDecGroup [symOf s.cfg (slice 6 6 w), symOf s.cfg (slice 0 6 w), padSym s.cfg, padSym s.cfg] s
  | _ => { s.pushLines [.op c] with turns := .host :: s.turns }

end Sys2Proof.Machine
end

