-- ==== Sys2Proof/Machine/Decoder.lean ====
section
/-! DEFINITION. The steps of DEC (42_decoder.md R115 to R122). The operands of a group step are what fetching the group
found: the values of its value symbols, or its four classes (`decFetch`). -/

namespace Sys2Proof.Machine

/-- `DEC.START` (R115). -/
def execDecStart (s : State) : Res := underConfig s (.next (startUnit .dec s))

/-- `DEC.LENFAIL`: `DEC.ILEN mod 4 != 0` raises `MalformedLength` (R116). -/
def execDecLenfail (s : State) : Res :=
  finishing (decide (s.dec.st = .busy ∧ s.dec.ilen % 4 ≠ 0)) s (raiseDecodeError .malformedLength s)

/-- `DEC4` (R117). -/
def execDec4 (v0 v1 v2 v3 : Val) (s : State) : Res :=
  decGroup (decGroupEnabled s) [decB0 v0 v1, decB1 v1 v2, decB2 v2 v3] s.paderr s.unkerr s

/-- `DEC3`, in the last group only (R118). -/
def execDec3 (v0 v1 v2 : Val) (s : State) : Res :=
  decGroup (decGroupEnabled s && lastGroup s) [decB0 v0 v1, decB1 v1 v2] s.paderr s.unkerr s

/-- `DEC2`, in the last group only (R119). -/
def execDec2 (v0 v1 : Val) (s : State) : Res :=
  decGroup (decGroupEnabled s && lastGroup s) [decB0 v0 v1] s.paderr s.unkerr s

/-- `DEC.GRPERR`, for a pattern that selects it and with `last` as it is (R120, R70). -/
def execDecGrperr (k0 k1 k2 k3 : SymClass) (last : Bool) (s : State) : Res :=
  decGroup
    (decGroupEnabled s && decide (lastGroup s = last) && decide (selectGroup k0 k1 k2 k3 last = .grperr)) []
    (nextPaderr s.paderr k0 k1 k2 k3 last) (nextUnkerr s.unkerr k0 k1 k2 k3) s

/-- The end state of `DEC.FINISH`: `PADERR` is tested before `UNKERR` (R121, R114). -/
def decFinished (s : State) : State :=
  if s.paderr then raiseDecodeError .misplacedPadding s
  else if s.unkerr then raiseDecodeError .unknownSymbol s
  else { s with dec := s.dec.finished s.dec.wp none }

/-- `DEC.FINISH` (R121). -/
def execDecFinish (s : State) : Res :=
  finishing (decide (s.dec.st = .busy ∧ s.dec.ilen % 4 = 0 ∧ s.dec.rp = s.dec.ilen)) s (decFinished s)

end Sys2Proof.Machine
end

