-- ==== Sys2Proof/Machine/Encoder.lean ====
section
/-! DEFINITION. The steps of ENC (41_encoder.md R91 to R96). The operands of a group step are what
`MemRead(ENC.IBUF, ENC.RP, n)` returned when the step was fetched (`encFetch`). -/

namespace Sys2Proof.Machine

/-- `ENC.START` (R91). -/
def execEncStart (s : State) : Res := underConfig s (.next (startUnit .enc s))

/-- `ENC3` (R92). -/
def execEnc3 (b0 b1 b2 : Byte) (s : State) : Res :=
  encGroup (enc3Enabled s) 3
    [symOf s.cfg (encV0 b0), symOf s.cfg (encV1 b0 b1), symOf s.cfg (encV2 b1 b2), symOf s.cfg (encV3 b2)] s

/-- `ENC2` (R93). -/
def execEnc2 (b0 b1 : Byte) (s : State) : Res :=
  encGroup (encLeft 2 s) 2
    [symOf s.cfg (encV0 b0), symOf s.cfg (encV1 b0 b1), symOf s.cfg (encV2Last b1), padSym s.cfg] s

/-- `ENC1` (R94). -/
def execEnc1 (b0 : Byte) (s : State) : Res :=
  encGroup (encLeft 1 s) 1
    [symOf s.cfg (encV0 b0), symOf s.cfg (encV1Last b0), padSym s.cfg, padSym s.cfg] s

/-- `ENC.FINISH`: `ENC.OLEN <- ENC.WP`, `ENC.ERR <- 0`, `ENC.ST <- DONE` (R95). -/
def execEncFinish (s : State) : Res :=
  finishing (encLeft 0 s) s { s with enc := s.enc.finished s.enc.wp none }

end Sys2Proof.Machine
end

