-- ==== Sys2Proof/Machine/HostAccess.lean ====
section
/-! DEFINITION. The host's accesses (43_host_interface.md R141 to R148). -/

namespace Sys2Proof.Machine

/-- `H.WR_IBUF(U, i, e)`: `if U.ST != BUSY then U.IBUF[i] <- e` (R141). -/
def execHWrIbuf (u : UnitId) (i : Nat) (e : BitVec 8) (s : State) : Res :=
  hostAccess u (.ibuf i) s <| .next <|
    if (s.unit u).st = .busy then s
    else s.setUnit u { s.unit u with ibuf := (s.unit u).ibuf.write i e }

/-- `H.WR_ILEN(U, n)`: `if U.ST != BUSY then U.ILEN <- n`, for an `n` that the register can hold (R142). -/
def execHWrIlen (u : UnitId) (n : Nat) (s : State) : Res :=
  underConfig s <|
    if n < 2 ^ ilenWidth s.cfg u then
      .next (if (s.unit u).st = .busy then s else s.setUnit u { s.unit u with ilen := n })
    else .refused .operandOutOfRange

/-- `H.START(U)`: a write of `d` to `U.CTRL`; START of the unit when bit 0 is 1, nothing when it is 0; bits 7:1 are
ignored (R143). -/
def execHStart (u : UnitId) (d : BitVec 8) (s : State) : Res :=
  underConfig s (.next (if d.getLsbD 0 then startUnit u s else s))

/-- `H.RD_STATUS(U)` (R144). -/
def execHRdStatus (u : UnitId) (s : State) : Res := answerWith (.reg8 (statusByte (s.unit u))) s

/-- `H.RD_OLEN(U)`: while BUSY any value of the register's width, a fresh one for each read; else `U.OLEN` (R145;
93_implementation_defined.md U2). -/
def execHRdOlen (u : UnitId) (s : State) : Res :=
  underConfig s <| .next <|
    if (s.unit u).st = .busy then
      (s.answering (.len (Config.freeLen s.freeCount % 2 ^ olenWidth s.cfg))).useFree
    else s.answering (.len (s.unit u).olen)

/-- The element that a read of `U.OBUF[i]` returns when it is part of the result: `U.ST = DONE`, `i < U.OLEN` (R146). -/
def resultElem (s : State) (u : UnitId) (i : Nat) : Option (BitVec 8) :=
  if (s.unit u).st = .done ∧ i < (s.unit u).olen then (s.unit u).obuf.read i else none

/-- `H.RD_OBUF(U, i)`: the result element, else any value, a fresh one for each read (R146; 93_implementation_defined.md
U2, U4). -/
def execHRdObuf (u : UnitId) (i : Nat) (s : State) : Res :=
  hostAccess u (.obuf i) s <| .next <|
    match resultElem s u i with
    | some e => s.answering (.elem e)
    | none => (s.answering (.elem (Config.freeElem s.freeCount))).useFree

/-- `H.RD_ILEN(U)` (R147). -/
def execHRdIlen (u : UnitId) (s : State) : Res := answerWith (.len (s.unit u).ilen) s

/-- `H.RD_IBUF(U, i)` (R147). -/
def execHRdIbuf (u : UnitId) (i : Nat) (s : State) : Res :=
  hostAccess u (.ibuf i) s (.next (s.answering (.elem (readInput s u i))))

end Sys2Proof.Machine
end

