-- ==== Sys2Proof/Machine/Lookup.lean ====
section
/-! DEFINITION. The three lookups (40_alphabet.md R80 to R84). They read the configuration, change no unit state and cannot
fail; as operations of their own they give their result to the asker (log entry 4). -/

namespace Sys2Proof.Machine

/-- `SYMOF(v)` (R82). -/
def execSymof (v : Val) (s : State) : Res := answerWith (.symbol (symOf s.cfg v)) s

/-- `CLASS(c)` (R83). -/
def execCls (c : Symbol) (s : State) : Res := answerClassOf c s

/-- `PADSYM` (R84). -/
def execPadsym (s : State) : Res := answerWith (.symbol (padSym s.cfg)) s

end Sys2Proof.Machine
end

