-- ==== Sys2Proof/Machine/Script.lean ====
section
/-! DEFINITION. The pseudo-operations (43_host_interface.md R151, R152): their effect is their expansion, which the host
then works through line by line. -/

namespace Sys2Proof.Machine

/-- `ENCODE x`, for an input that `ENC.ILEN` can hold (R151). -/
def execPEncode (x : List Byte) (s : State) : Res :=
  underConfig s <|
    if x.length < 2 ^ ilenWidth s.cfg .enc then .next (s.pushLines (encodeScript x)) else .refused .operandOutOfRange

/-- `DECODE s`, for an input that `DEC.ILEN` can hold (R152). -/
def execPDecode (x : List Symbol) (s : State) : Res :=
  underConfig s <|
    if x.length < 2 ^ ilenWidth s.cfg .dec then .next (s.pushLines (decodeScript x)) else .refused .operandOutOfRange

end Sys2Proof.Machine
end

