-- ==== Sys2Proof/Machine/Symbols.lean ====
section
/-! DEFINITION. The symbol-code rows of opcode_table.json (40_alphabet.md R85): each is the lookup `CLASS` of the row's
code (R83). The rows are those of the classic alphabet; under another alphabet the same code has the class that one gives
it (log entry 6). -/

namespace Sys2Proof.Machine

/-- `SYM.0`: the code 0x41 ("A") is looked up (R85, R83). -/
def execSym0 (s : State) : Res := answerClassOf 0x41#8 s

/-- `SYM.1`: the code 0x42 ("B") is looked up (R85, R83). -/
def execSym1 (s : State) : Res := answerClassOf 0x42#8 s

/-- `SYM.2`: the code 0x43 ("C") is looked up (R85, R83). -/
def execSym2 (s : State) : Res := answerClassOf 0x43#8 s

/-- `SYM.3`: the code 0x44 ("D") is looked up (R85, R83). -/
def execSym3 (s : State) : Res := answerClassOf 0x44#8 s

/-- `SYM.4`: the code 0x45 ("E") is looked up (R85, R83). -/
def execSym4 (s : State) : Res := answerClassOf 0x45#8 s

/-- `SYM.5`: the code 0x46 ("F") is looked up (R85, R83). -/
def execSym5 (s : State) : Res := answerClassOf 0x46#8 s

/-- `SYM.6`: the code 0x47 ("G") is looked up (R85, R83). -/
def execSym6 (s : State) : Res := answerClassOf 0x47#8 s

/-- `SYM.7`: the code 0x48 ("H") is looked up (R85, R83). -/
def execSym7 (s : State) : Res := answerClassOf 0x48#8 s

/-- `SYM.8`: the code 0x49 ("I") is looked up (R85, R83). -/
def execSym8 (s : State) : Res := answerClassOf 0x49#8 s

/-- `SYM.9`: the code 0x4A ("J") is looked up (R85, R83). -/
def execSym9 (s : State) : Res := answerClassOf 0x4A#8 s

/-- `SYM.10`: the code 0x4B ("K") is looked up (R85, R83). -/
def execSym10 (s : State) : Res := answerClassOf 0x4B#8 s

/-- `SYM.11`: the code 0x4C ("L") is looked up (R85, R83). -/
def execSym11 (s : State) : Res := answerClassOf 0x4C#8 s

/-- `SYM.12`: the code 0x4D ("M") is looked up (R85, R83). -/
def execSym12 (s : State) : Res := answerClassOf 0x4D#8 s

/-- `SYM.13`: the code 0x4E ("N") is looked up (R85, R83). -/
def execSym13 (s : State) : Res := answerClassOf 0x4E#8 s

/-- `SYM.14`: the code 0x4F ("O") is looked up (R85, R83). -/
def execSym14 (s : State) : Res := answerClassOf 0x4F#8 s

/-- `SYM.15`: the code 0x50 ("P") is looked up (R85, R83). -/
def execSym15 (s : State) : Res := answerClassOf 0x50#8 s

/-- `SYM.16`: the code 0x51 ("Q") is looked up (R85, R83). -/
def execSym16 (s : State) : Res := answerClassOf 0x51#8 s

/-- `SYM.17`: the code 0x52 ("R") is looked up (R85, R83). -/
def execSym17 (s : State) : Res := answerClassOf 0x52#8 s

/-- `SYM.18`: the code 0x53 ("S") is looked up (R85, R83). -/
def execSym18 (s : State) : Res := answerClassOf 0x53#8 s

/-- `SYM.19`: the code 0x54 ("T") is looked up (R85, R83). -/
def execSym19 (s : State) : Res := answerClassOf 0x54#8 s

/-- `SYM.20`: the code 0x55 ("U") is looked up (R85, R83). -/
def execSym20 (s : State) : Res := answerClassOf 0x55#8 s

/-- `SYM.21`: the code 0x56 ("V") is looked up (R85, R83). -/
def execSym21 (s : State) : Res := answerClassOf 0x56#8 s

/-- `SYM.22`: the code 0x57 ("W") is looked up (R85, R83). -/
def execSym22 (s : State) : Res := answerClassOf 0x57#8 s

/-- `SYM.23`: the code 0x58 ("X") is looked up (R85, R83). -/
def execSym23 (s : State) : Res := answerClassOf 0x58#8 s

/-- `SYM.24`: the code 0x59 ("Y") is looked up (R85, R83). -/
def execSym24 (s : State) : Res := answerClassOf 0x59#8 s

/-- `SYM.25`: the code 0x5A ("Z") is looked up (R85, R83). -/
def execSym25 (s : State) : Res := answerClassOf 0x5A#8 s

/-- `SYM.26`: the code 0x61 ("a") is looked up (R85, R83). -/
def execSym26 (s : State) : Res := answerClassOf 0x61#8 s

/-- `SYM.27`: the code 0x62 ("b") is looked up (R85, R83). -/
def execSym27 (s : State) : Res := answerClassOf 0x62#8 s

/-- `SYM.28`: the code 0x63 ("c") is looked up (R85, R83). -/
def execSym28 (s : State) : Res := answerClassOf 0x63#8 s

/-- `SYM.29`: the code 0x64 ("d") is looked up (R85, R83). -/
def execSym29 (s : State) : Res := answerClassOf 0x64#8 s

/-- `SYM.30`: the code 0x65 ("e") is looked up (R85, R83). -/
def execSym30 (s : State) : Res := answerClassOf 0x65#8 s

/-- `SYM.31`: the code 0x66 ("f") is looked up (R85, R83). -/
def execSym31 (s : State) : Res := answerClassOf 0x66#8 s

/-- `SYM.32`: the code 0x67 ("g") is looked up (R85, R83). -/
def execSym32 (s : State) : Res := answerClassOf 0x67#8 s

/-- `SYM.33`: the code 0x68 ("h") is looked up (R85, R83). -/
def execSym33 (s : State) : Res := answerClassOf 0x68#8 s

/-- `SYM.34`: the code 0x69 ("i") is looked up (R85, R83). -/
def execSym34 (s : State) : Res := answerClassOf 0x69#8 s

/-- `SYM.35`: the code 0x6A ("j") is looked up (R85, R83). -/
def execSym35 (s : State) : Res := answerClassOf 0x6A#8 s

/-- `SYM.36`: the code 0x6B ("k") is looked up (R85, R83). -/
def execSym36 (s : State) : Res := answerClassOf 0x6B#8 s

/-- `SYM.37`: the code 0x6C ("l") is looked up (R85, R83). -/
def execSym37 (s : State) : Res := answerClassOf 0x6C#8 s

/-- `SYM.38`: the code 0x6D ("m") is looked up (R85, R83). -/
def execSym38 (s : State) : Res := answerClassOf 0x6D#8 s

/-- `SYM.39`: the code 0x6E ("n") is looked up (R85, R83). -/
def execSym39 (s : State) : Res := answerClassOf 0x6E#8 s

/-- `SYM.40`: the code 0x6F ("o") is looked up (R85, R83). -/
def execSym40 (s : State) : Res := answerClassOf 0x6F#8 s

/-- `SYM.41`: the code 0x70 ("p") is looked up (R85, R83). -/
def execSym41 (s : State) : Res := answerClassOf 0x70#8 s

/-- `SYM.42`: the code 0x71 ("q") is looked up (R85, R83). -/
def execSym42 (s : State) : Res := answerClassOf 0x71#8 s

/-- `SYM.43`: the code 0x72 ("r") is looked up (R85, R83). -/
def execSym43 (s : State) : Res := answerClassOf 0x72#8 s

/-- `SYM.44`: the code 0x73 ("s") is looked up (R85, R83). -/
def execSym44 (s : State) : Res := answerClassOf 0x73#8 s

/-- `SYM.45`: the code 0x74 ("t") is looked up (R85, R83). -/
def execSym45 (s : State) : Res := answerClassOf 0x74#8 s

/-- `SYM.46`: the code 0x75 ("u") is looked up (R85, R83). -/
def execSym46 (s : State) : Res := answerClassOf 0x75#8 s

/-- `SYM.47`: the code 0x76 ("v") is looked up (R85, R83). -/
def execSym47 (s : State) : Res := answerClassOf 0x76#8 s

/-- `SYM.48`: the code 0x77 ("w") is looked up (R85, R83). -/
def execSym48 (s : State) : Res := answerClassOf 0x77#8 s

/-- `SYM.49`: the code 0x78 ("x") is looked up (R85, R83). -/
def execSym49 (s : State) : Res := answerClassOf 0x78#8 s

/-- `SYM.50`: the code 0x79 ("y") is looked up (R85, R83). -/
def execSym50 (s : State) : Res := answerClassOf 0x79#8 s

/-- `SYM.51`: the code 0x7A ("z") is looked up (R85, R83). -/
def execSym51 (s : State) : Res := answerClassOf 0x7A#8 s

/-- `SYM.52`: the code 0x30 ("0") is looked up (R85, R83). -/
def execSym52 (s : State) : Res := answerClassOf 0x30#8 s

/-- `SYM.53`: the code 0x31 ("1") is looked up (R85, R83). -/
def execSym53 (s : State) : Res := answerClassOf 0x31#8 s

/-- `SYM.54`: the code 0x32 ("2") is looked up (R85, R83). -/
def execSym54 (s : State) : Res := answerClassOf 0x32#8 s

/-- `SYM.55`: the code 0x33 ("3") is looked up (R85, R83). -/
def execSym55 (s : State) : Res := answerClassOf 0x33#8 s

/-- `SYM.56`: the code 0x34 ("4") is looked up (R85, R83). -/
def execSym56 (s : State) : Res := answerClassOf 0x34#8 s

/-- `SYM.57`: the code 0x35 ("5") is looked up (R85, R83). -/
def execSym57 (s : State) : Res := answerClassOf 0x35#8 s

/-- `SYM.58`: the code 0x36 ("6") is looked up (R85, R83). -/
def execSym58 (s : State) : Res := answerClassOf 0x36#8 s

/-- `SYM.59`: the code 0x37 ("7") is looked up (R85, R83). -/
def execSym59 (s : State) : Res := answerClassOf 0x37#8 s

/-- `SYM.60`: the code 0x38 ("8") is looked up (R85, R83). -/
def execSym60 (s : State) : Res := answerClassOf 0x38#8 s

/-- `SYM.61`: the code 0x39 ("9") is looked up (R85, R83). -/
def execSym61 (s : State) : Res := answerClassOf 0x39#8 s

/-- `SYM.62`: the code 0x2B ("+") is looked up (R85, R83). -/
def execSym62 (s : State) : Res := answerClassOf 0x2B#8 s

/-- `SYM.63`: the code 0x2F ("/") is looked up (R85, R83). -/
def execSym63 (s : State) : Res := answerClassOf 0x2F#8 s

/-- `SYM.PAD`: the code 0x3D ("=") is looked up (R85, R83). -/
def execSymPad (s : State) : Res := answerClassOf 0x3D#8 s

/-- `SYM.UNK`: a code of no other row is looked up (R83, R71). -/
def execSymUnk (c : Symbol) (s : State) : Res := answerClassOf c s

end Sys2Proof.Machine
end

