-- ==== Sys2Proof/Machine/Step.lean ====
section
/-! DEFINITION. One step of the machine (44_sequencing_and_access.md R157; 20_memory.md R50): whose turn it is, which
operation that agent's turn is, and its meaning. -/

namespace Sys2Proof.Machine

/-- Run what a code decodes to. -/
def runCode (c : Code) (s : State) : Host.Outcome State Fault Refusal :=
  match decode c with
  | .ok (.instr i) => exec i s
  | .ok (.ignoredWrite u p) => ignoreWrite u p s
  | .ok (.ctrlRead u) => readCtrl u s
  | .error e => underConfig s (.refused (.undecodable e))

/-- A turn of unit `u`: its enabled step while it is BUSY, nothing otherwise (41_encoder.md R96; 42_decoder.md R122). -/
def unitTurn (u : UnitId) (s : State) : Host.Outcome State Fault Refusal :=
  if (s.unit u).st = .busy then
    match unitFetch s u with
    | some c => runCode c s
    | none => underConfig s (.fault (.noStepEnabled u))
  else underConfig s (.next s)

/-- One line of the host's script, already taken off it. -/
def runLine (l : Line) (s : State) : Host.Outcome State Fault Refusal :=
  match lineCode l with
  | none => underConfig s (.next (lineThen l s))
  | some c =>
    if hostMayIssue c then
      match runCode c s with
      | .next t => .next (lineThen l t)
      | .fault f => .fault f
      | .refused r => .refused r
    else .refused .notAHostAccess

/-- A turn of the host: the next line of its script, or nothing. -/
def hostTurn (s : State) : Host.Outcome State Fault Refusal :=
  match s.host.script with
  | [] => underConfig s (.next s)
  | l :: rest => runLine l { s with host := { s.host with script := rest } }

/-- A turn of an agent. -/
def turn (a : Agent) (s : State) : Host.Outcome State Fault Refusal :=
  match a with
  | .enc => unitTurn .enc s
  | .dec => unitTurn .dec s
  | .host => hostTurn s
  | .reset => underConfig s (.next (applyReset s))

/-- One step: the agent whose turn it is takes it. -/
def step (s : State) : Host.Outcome State Fault Refusal := turn s.nextAgent s.popTurn

/-- The state whose very next step runs the table word `w` of `nbits` bits (log entry 10). -/
def State.withFetchWord (s : State) (nbits w : Nat) : State :=
  match tableCode nbits w with
  | some c => placeCode c s
  | none => s

end Sys2Proof.Machine
end

