-- ==== Sys2Proof/Machine/Functions.lean ====
section
/-! DEFINITION. The two whole-input functions of the source, which are normative (00_scope.md R6): `encode` (41_encoder.md
R90) and `decode` (42_decoder.md R110). No step calls them; the statements hold the step machine against them (R99, R123). -/

namespace Sys2Proof.Machine

/-- `encode(x)` (R90). -/
def codecEncode (c : Config) : List Byte → List Symbol
  | [] => []
  | [b0] => [symOf c (encV0 b0), symOf c (encV1Last b0), padSym c, padSym c]
  | [b0, b1] => [symOf c (encV0 b0), symOf c (encV1 b0 b1), symOf c (encV2Last b1), padSym c]
  | b0 :: b1 :: b2 :: x =>
    symOf c (encV0 b0) :: symOf c (encV1 b0 b1) :: symOf c (encV2 b1 b2) :: symOf c (encV3 b2) :: codecEncode c x

/-- Check 1 fails: the length is not a multiple of 4 (R111). -/
def lengthMalformed (x : List Symbol) : Bool := decide (x.length % 4 ≠ 0)

/-- Check 2 fails: for some `i`, `s[i] = PAD and not (i = n-1 or (i = n-2 and s[n-1] = PAD))` (R110, R112). -/
def paddingMisplaced (c : Config) (x : List Symbol) : Bool :=
  (List.range x.length).any fun i =>
    decide (x[i]? = some c.pad ∧ ¬ (i + 1 = x.length ∨ (i + 2 = x.length ∧ x[i + 1]? = some c.pad)))

/-- Check 3 fails: some symbol has class `UNK` (R110, R113). -/
def symbolUnknown (c : Config) (x : List Symbol) : Bool := x.any fun s => decide (classOf c s = .unk)

/-- The bytes of one group of four classes, by the three accepted shapes (R110, processing); no byte for any other, which
the checks have excluded. -/
def groupBytes : SymClass → SymClass → SymClass → SymClass → List Byte
  | .val v0, .val v1, .val v2, .val v3 => [decB0 v0 v1, decB1 v1 v2, decB2 v2 v3]
  | .val v0, .val v1, .val v2, .padc => [decB0 v0 v1, decB1 v1 v2]
  | .val v0, .val v1, .padc, .padc => [decB0 v0 v1]
  | _, _, _, _ => []

/-- The processing part: group after group (R110). -/
def decodeGroups (c : Config) : List Symbol → List Byte
  | c0 :: c1 :: c2 :: c3 :: x =>
    groupBytes (classOf c c0) (classOf c c1) (classOf c c2) (classOf c c3) ++ decodeGroups c x
  | _ => []

/-- `decode(s)`: the three checks in their order, each over the whole string, then the processing (R110, R114). -/
def codecDecode (c : Config) (x : List Symbol) : Except DecErr (List Byte) :=
  if lengthMalformed x then .error .malformedLength
  else if paddingMisplaced c x then .error .misplacedPadding
  else if symbolUnknown c x then .error .unknownSymbol
  else .ok (decodeGroups c x)

end Sys2Proof.Machine
end

