-- ==== Sys2Proof/Safety.lean ====
section
/-! DEFINITION. The terms in which the statements speak of a run: the invariant of the reachable states (10_state.md R26),
several turns of one agent, the input of a transaction and the output that a state holds. -/

namespace Sys2Proof.Machine

/-- What holds of ENC in every reachable state (10_state.md R14, R23, R26 (b), (c); 20_memory.md R54). -/
structure EncInv (s : State) : Prop where
  errOk : s.enc.err = none
  ilenFits : s.enc.ilen < 2 ^ ilenWidth s.cfg .enc
  olenFits : s.enc.olen < 2 ^ olenWidth s.cfg
  ibufForm : s.enc.ibuf.wf = true
  ibufWithin : s.enc.ibuf.within (ibufSize s.cfg .enc) = true
  obufForm : s.enc.obuf.wf = true
  obufWithin : s.enc.obuf.within (obufSize s.cfg .enc) = true
  idleLength : s.enc.st = .idle → s.enc.olen = 0
  busyRead : s.enc.st = .busy → s.enc.rp ≤ s.enc.ilen ∧ (s.enc.rp % 3 = 0 ∨ s.enc.rp = s.enc.ilen)
  busyWritten : s.enc.st = .busy → s.enc.wp = 4 * ((s.enc.rp + 2) / 3)
  busyLength : s.enc.st = .busy → s.enc.olen = 0
  busyOutput : s.enc.st = .busy → ∀ i, i < s.enc.wp → (s.enc.obuf.read i).isSome
  doneOutput : s.enc.st = .done → ∀ i, i < s.enc.olen → (s.enc.obuf.read i).isSome

/-- What holds of DEC in every reachable state (10_state.md R14, R23, R26 (d); 60_exceptions.md R166; 20_memory.md R54). -/
structure DecInv (s : State) : Prop where
  ilenFits : s.dec.ilen < 2 ^ ilenWidth s.cfg .dec
  olenFits : s.dec.olen < 2 ^ olenWidth s.cfg
  ibufForm : s.dec.ibuf.wf = true
  ibufWithin : s.dec.ibuf.within (ibufSize s.cfg .dec) = true
  obufForm : s.dec.obuf.wf = true
  obufWithin : s.dec.obuf.within (obufSize s.cfg .dec) = true
  errOnlyDone : s.dec.err ≠ none → s.dec.st = .done ∧ s.dec.olen = 0
  idleLength : s.dec.st = .idle → s.dec.olen = 0
  busyRead : s.dec.st = .busy → s.dec.ilen % 4 = 0 → s.dec.rp ≤ s.dec.ilen ∧ s.dec.rp % 4 = 0
  busyWritten : s.dec.st = .busy → s.dec.ilen % 4 = 0 → s.dec.wp ≤ 3 * (s.dec.rp / 4)
  busyLength : s.dec.st = .busy → s.dec.olen = 0
  busyOutput : s.dec.st = .busy → s.dec.ilen % 4 = 0 → ∀ i, i < s.dec.wp → (s.dec.obuf.read i).isSome
  doneOutput : s.dec.st = .done → ∀ i, i < s.dec.olen → (s.dec.obuf.read i).isSome

/-- The invariant of the reachable states (10_state.md R26 (a) to (d)): the configuration is well-formed, and each unit is
as `EncInv` and `DecInv` say. R26 (a) holds by the type of `ST`. -/
structure Inv (s : State) : Prop where
  config : s.cfg.WF
  enc : EncInv s
  dec : DecInv s

/-- `k` turns of one agent, stopping at the first fault or refusal. -/
def manyTurns (a : Agent) : Nat → State → Res
  | 0, s => .next s
  | k + 1, s =>
    match turn a s with
    | .next t => manyTurns a k t
    | .fault f => .fault f
    | .refused r => .refused r

/-- The input of unit `u`: `U.IBUF[0 .. U.ILEN-1]` (10_state.md R24). -/
def inputOf (s : State) (u : UnitId) : List (BitVec 8) := memRead s u 0 (s.unit u).ilen

/-- `U.OBUF[0 .. n-1]` holds `out`. -/
def holdsOutput (x : CodecUnit) (out : List (BitVec 8)) : Prop :=
  ∀ i, i < out.length → x.obuf.read i = out[i]?

/-- The unit steps that a transaction of ENC takes after START (41_encoder.md R102). -/
def encSteps (n : Nat) : Nat := (n + 2) / 3 + 1

/-- The unit steps that a transaction of DEC takes after START (42_decoder.md R128). -/
def decSteps (n : Nat) : Nat := if n % 4 = 0 then n / 4 + 1 else 1

/-- The unit whose state an operation may read or write: none for a lookup and for a pseudo-operation (10_state.md R10;
44_sequencing_and_access.md R158). -/
def unitOf : Instr → Option UnitId
  | .encStart | .enc3 _ _ _ | .enc2 _ _ | .enc1 _ | .encFinish => some .enc
  | .decStart | .decLenfail | .dec4 _ _ _ _ | .dec3 _ _ _ | .dec2 _ _ | .decGrperr _ _ _ _ _ | .decFinish => some .dec
  | .hWrIbuf u _ _ | .hWrIlen u _ | .hStart u _ | .hRdStatus u | .hRdOlen u | .hRdObuf u _ | .hRdIlen u
  | .hRdIbuf u _ => some u
  | .symof _ | .cls _ | .padsym | .pEncode _ | .pDecode _
  | .sym0 | .sym1 | .sym2 | .sym3 | .sym4 | .sym5 | .sym6 | .sym7 | .sym8 | .sym9 | .sym10 | .sym11 | .sym12 | .sym13 | .sym14 | .sym15
  | .sym16 | .sym17 | .sym18 | .sym19 | .sym20 | .sym21 | .sym22 | .sym23 | .sym24 | .sym25 | .sym26 | .sym27 | .sym28 | .sym29 | .sym30 | .sym31
  | .sym32 | .sym33 | .sym34 | .sym35 | .sym36 | .sym37 | .sym38 | .sym39 | .sym40 | .sym41 | .sym42 | .sym43 | .sym44 | .sym45 | .sym46 | .sym47
  | .sym48 | .sym49 | .sym50 | .sym51 | .sym52 | .sym53 | .sym54 | .sym55 | .sym56 | .sym57 | .sym58 | .sym59 | .sym60 | .sym61 | .sym62 | .sym63
  | .symPad | .symUnk _ => none

/-- The state with DEC, its flags included, as in `d`. -/
def withDecOf (s d : State) : State := { s with dec := d.dec, paderr := d.paderr, unkerr := d.unkerr }

/-- The state with ENC as in `e`. -/
def withEncOf (s e : State) : State := { s with enc := e.enc }

/-- An outcome with its next state changed by `f`. -/
def mapNext (f : State → State) : Res → Res
  | .next t => .next (f t)
  | .fault r => .fault r
  | .refused r => .refused r

/-- A step is safe in `s` when it does not end in a fault. -/
def StepSafe (s : State) : Prop := ∀ f, step s ≠ .fault f

end Sys2Proof.Machine
end

