-- ==== Sys2Proof/Certificates/Slice0/Obligations.lean ====
section
/-! DEFINITION. The statements about CORE, one `Obligations.<Name>` each, taken from the numbered rules of spec/. -/

open Sys2Proof Sys2Proof.Machine

/-! ## The alphabet and the lookups (40_alphabet.md) -/

/-- R85: the table of the classic alphabet, that it is the default configuration, and that it satisfies R81. -/
def Obligations.ClassicAlphabetTable : Prop :=
  State.reset.cfg = classicConfig ∧ classicConfig.WF ∧ padSym classicConfig = 0x3D#8 ∧
    ∀ v : Val, symOf classicConfig v =
      if v.toNat < 26 then BitVec.ofNat 8 (0x41 + v.toNat)
      else if v.toNat < 52 then BitVec.ofNat 8 (0x61 + (v.toNat - 26))
      else if v.toNat < 62 then BitVec.ofNat 8 (0x30 + (v.toNat - 52))
      else if v.toNat = 62 then 0x2B#8
      else 0x2F#8

/-- R87: the two lookups are inverse to each other under every well-formed alphabet. -/
def Obligations.LookupsAreInverse : Prop :=
  ∀ c : Config, c.WF →
    (∀ v : Val, classOf c (symOf c v) = .val v) ∧
    (∀ (x : BitVec 8) (v : Val), classOf c x = .val v → symOf c v = x)

/-- R82, and the value of R84: SYMOF gives the entry of the value, never the padding symbol, and PADSYM gives PAD; nothing of CORE
changes. -/
def Obligations.SymofAndPadsymReadTheAlphabet : Prop :=
  ∀ s : State, s.cfg.WF →
    (∀ v : Val, exec (.symof v) s = .next (s.answering (.symbol (s.cfg.alpha[v.toNat]'v.isLt))) ∧
      s.cfg.alpha[v.toNat]'v.isLt ≠ s.cfg.pad) ∧
    exec .padsym s = .next (s.answering (.symbol s.cfg.pad))

/-- R83: CLASS gives PADC for the padding symbol, VAL(v) for entry v, UNK otherwise, and changes nothing of CORE; 64 of
the 256 codes have class VAL, one PADC, 191 UNK. -/
def Obligations.ClassComparesWithTheAlphabet : Prop :=
  ∀ s : State, s.cfg.WF →
    (∀ x : BitVec 8, ∃ k, exec (.cls x) s = .next (s.answering (.cls k)) ∧
      (x = s.cfg.pad → k = .padc) ∧
      (∀ v : Val, x = s.cfg.alpha[v.toNat]'v.isLt → k = .val v) ∧
      (x ≠ s.cfg.pad → (∀ v : Val, x ≠ s.cfg.alpha[v.toNat]'v.isLt) → k = .unk)) ∧
    let k := fun n => classOf s.cfg (BitVec.ofNat 8 n)
    ((List.range 256).filter fun n => !isPad (k n) && !isUnk (k n)).length = 64 ∧
    ((List.range 256).filter fun n => isPad (k n)).length = 1 ∧
    ((List.range 256).filter fun n => isUnk (k n)).length = 191

/-- The 66 symbol-code rows (SYM.0 to SYM.63, SYM.PAD, SYM.UNK): each gives the class of its code under the configured
alphabet and changes nothing of CORE (R83; that a row is the lookup of its code is log entry 6). -/
def Obligations.SymbolRowsGiveTheirClass : Prop :=
  ∀ (i : Instr) (x : BitVec 8) (s : State), encode i = .sym8 x → s.cfg.WF →
    exec i s = .next (s.answering (.cls (classOf s.cfg x)))

/-- From R85, R71 (c) and opcode_table.json: under the classic alphabet the row SYM.v gives VAL(v), SYM.PAD gives PADC, SYM.UNK
gives UNK, and the unknown codes are the six listed ranges. That executing a row is the lookup CLASS of its code is the
model's choice (log entry 6). -/
def Obligations.ClassicRowsHaveTheirClasses : Prop :=
  ∀ s : State, s.cfg.WF → s.cfg.alpha = classicConfig.alpha → s.cfg.pad = classicConfig.pad →
    (∀ (v : Nat) (i : Instr), symRows[v]? = some i →
      exec i s = .next (s.answering (.cls (.val (BitVec.ofNat 6 v))))) ∧
    exec .symPad s = .next (s.answering (.cls .padc)) ∧
    (∀ x : BitVec 8, (Instr.symUnk x).wf s.cfg = true → exec (.symUnk x) s = .next (s.answering (.cls .unk))) ∧
    (∀ x : BitVec 8, classOf s.cfg x = .unk ↔
      x.toNat ≤ 0x2A ∨ (0x2C ≤ x.toNat ∧ x.toNat ≤ 0x2E) ∨ (0x3A ≤ x.toNat ∧ x.toNat ≤ 0x3C) ∨
        (0x3E ≤ x.toNat ∧ x.toNat ≤ 0x40) ∨ (0x5B ≤ x.toNat ∧ x.toNat ≤ 0x60) ∨ 0x7B ≤ x.toNat)

/-- R66: every shift-and-mask formula of the source equals the slice of its format, and the two operands of `|` have no
bit in common. -/
def Obligations.FormulasAreSlices : Prop :=
  (∀ b0 b1 b2 : Byte,
    encV0 b0 = slice 18 6 (wordG24 b0 b1 b2) ∧ encV1 b0 b1 = slice 12 6 (wordG24 b0 b1 b2) ∧
    encV2 b1 b2 = slice 6 6 (wordG24 b0 b1 b2) ∧ encV3 b2 = slice 0 6 (wordG24 b0 b1 b2) ∧
    encV0 b0 = slice 12 6 (wordG18 b0 b1) ∧ encV1 b0 b1 = slice 6 6 (wordG18 b0 b1) ∧
    encV2Last b1 = slice 0 6 (wordG18 b0 b1) ∧
    encV0 b0 = slice 6 6 (wordG12 b0) ∧ encV1Last b0 = slice 0 6 (wordG12 b0) ∧
    ((b0 &&& 0x3#8) <<< 4) &&& (b1 >>> 4) = 0#8 ∧ ((b1 &&& 0xF#8) <<< 2) &&& (b2 >>> 6) = 0#8) ∧
  (∀ v0 v1 v2 v3 : Val,
    decB0 v0 v1 = slice 16 8 (wordQ24 v0 v1 v2 v3) ∧ decB1 v1 v2 = slice 8 8 (wordQ24 v0 v1 v2 v3) ∧
    decB2 v2 v3 = slice 0 8 (wordQ24 v0 v1 v2 v3) ∧
    decB0 v0 v1 = slice 10 8 (wordQ18 v0 v1 v2) ∧ decB1 v1 v2 = slice 2 8 (wordQ18 v0 v1 v2) ∧
    decB0 v0 v1 = slice 4 8 (wordQ12 v0 v1) ∧
    (v0.setWidth 8 <<< 2) &&& (v1.setWidth 8 >>> 4) = 0#8 ∧
    ((v1.setWidth 8 &&& 0xF#8) <<< 4) &&& (v2.setWidth 8 >>> 2) = 0#8 ∧
    ((v2.setWidth 8 &&& 0x3#8) <<< 6) &&& v3.setWidth 8 = 0#8)

/-! ## The encoder (41_encoder.md) -/

/-- From R91: ENC.START sets RP, WP, OLEN and ERR to 0 and ST to BUSY, is ignored while BUSY, and changes nothing else. That
the field `obuf` stays as it was is the model's choice (log entry 15): R91 and R54 leave ENC.OBUF unspecified from this
step until DONE, and no read of the host shows it then. -/
def Obligations.EncStartBeginsATransaction : Prop :=
  ∀ s : State, s.cfg.WF →
    (s.enc.st = .busy → exec .encStart s = .next s) ∧
    (s.enc.st ≠ .busy → exec .encStart s =
      .next { s with enc := { s.enc with rp := 0, wp := 0, olen := 0, err := none, st := .busy } })

/-- R92: ENC3, taken on the three bytes at RP, writes the four symbols of the group at WP and moves RP by 3 and WP by 4;
every other element and register is as before. -/
def Obligations.Enc3EncodesAFullGroup : Prop :=
  ∀ s : State, s.cfg.WF → s.enc.st = .busy → s.enc.rp + 3 ≤ s.enc.ilen →
    s.enc.rp + 3 ≤ ibufSize s.cfg .enc → s.enc.wp + 4 ≤ obufSize s.cfg .enc →
    (turn .enc s = exec (.enc3 (readInput s .enc s.enc.rp) (readInput s .enc (s.enc.rp + 1))
      (readInput s .enc (s.enc.rp + 2))) s) ∧
    ∀ b0 b1 b2 : Byte, ∃ t, exec (.enc3 b0 b1 b2) s = .next t ∧
      t.enc.obuf.read s.enc.wp = some (symOf s.cfg ((b0 >>> 2).setWidth 6)) ∧
      t.enc.obuf.read (s.enc.wp + 1) = some (symOf s.cfg ((((b0 &&& 0x3#8) <<< 4) ||| (b1 >>> 4)).setWidth 6)) ∧
      t.enc.obuf.read (s.enc.wp + 2) = some (symOf s.cfg ((((b1 &&& 0xF#8) <<< 2) ||| (b2 >>> 6)).setWidth 6)) ∧
      t.enc.obuf.read (s.enc.wp + 3) = some (symOf s.cfg ((b2 &&& 0x3F#8).setWidth 6)) ∧
      (∀ i, (i < s.enc.wp ∨ s.enc.wp + 4 ≤ i) → t.enc.obuf.read i = s.enc.obuf.read i) ∧
      t = { s with enc := { s.enc with obuf := t.enc.obuf, rp := s.enc.rp + 3, wp := s.enc.wp + 4 } }

/-- R93: ENC2, taken on the last two bytes, writes three symbols and one PAD at WP and moves RP by 2 and WP by 4; every
other element and register is as before. -/
def Obligations.Enc2EncodesTwoTrailingBytes : Prop :=
  ∀ s : State, s.cfg.WF → s.enc.st = .busy → s.enc.rp + 2 = s.enc.ilen →
    s.enc.rp + 2 ≤ ibufSize s.cfg .enc → s.enc.wp + 4 ≤ obufSize s.cfg .enc →
    (turn .enc s = exec (.enc2 (readInput s .enc s.enc.rp) (readInput s .enc (s.enc.rp + 1))) s) ∧
    ∀ b0 b1 : Byte, ∃ t, exec (.enc2 b0 b1) s = .next t ∧
      t.enc.obuf.read s.enc.wp = some (symOf s.cfg ((b0 >>> 2).setWidth 6)) ∧
      t.enc.obuf.read (s.enc.wp + 1) = some (symOf s.cfg ((((b0 &&& 0x3#8) <<< 4) ||| (b1 >>> 4)).setWidth 6)) ∧
      t.enc.obuf.read (s.enc.wp + 2) = some (symOf s.cfg (((b1 &&& 0xF#8) <<< 2).setWidth 6)) ∧
      t.enc.obuf.read (s.enc.wp + 3) = some s.cfg.pad ∧
      (∀ i, (i < s.enc.wp ∨ s.enc.wp + 4 ≤ i) → t.enc.obuf.read i = s.enc.obuf.read i) ∧
      t = { s with enc := { s.enc with obuf := t.enc.obuf, rp := s.enc.rp + 2, wp := s.enc.wp + 4 } }

/-- R94: ENC1, taken on the last byte, writes two symbols and two PADs at WP and moves RP by 1 and WP by 4; every other
element and register is as before. -/
def Obligations.Enc1EncodesOneTrailingByte : Prop :=
  ∀ s : State, s.cfg.WF → s.enc.st = .busy → s.enc.rp + 1 = s.enc.ilen →
    s.enc.rp + 1 ≤ ibufSize s.cfg .enc → s.enc.wp + 4 ≤ obufSize s.cfg .enc →
    (turn .enc s = exec (.enc1 (readInput s .enc s.enc.rp)) s) ∧
    ∀ b0 : Byte, ∃ t, exec (.enc1 b0) s = .next t ∧
      t.enc.obuf.read s.enc.wp = some (symOf s.cfg ((b0 >>> 2).setWidth 6)) ∧
      t.enc.obuf.read (s.enc.wp + 1) = some (symOf s.cfg (((b0 &&& 0x3#8) <<< 4).setWidth 6)) ∧
      t.enc.obuf.read (s.enc.wp + 2) = some s.cfg.pad ∧
      t.enc.obuf.read (s.enc.wp + 3) = some s.cfg.pad ∧
      (∀ i, (i < s.enc.wp ∨ s.enc.wp + 4 ≤ i) → t.enc.obuf.read i = s.enc.obuf.read i) ∧
      t = { s with enc := { s.enc with obuf := t.enc.obuf, rp := s.enc.rp + 1, wp := s.enc.wp + 4 } }

/-- R95: ENC.FINISH, taken when RP = ILEN, sets OLEN to WP, ERR to 0 and ST to DONE, and changes nothing else. -/
def Obligations.EncFinishPublishesTheLength : Prop :=
  ∀ s : State, s.cfg.WF → s.enc.st = .busy → s.enc.rp = s.enc.ilen →
    turn .enc s = exec .encFinish s ∧
    exec .encFinish s = .next { s with enc := { s.enc with olen := s.enc.wp, err := none, st := .done } }

/-- R96: while BUSY exactly the step that `rem` selects is taken; while not BUSY ENC does nothing. -/
def Obligations.EncStepIsSelectedByBytesLeft : Prop :=
  ∀ s : State, s.cfg.WF →
    (s.enc.st ≠ .busy → turn .enc s = .next s) ∧
    (s.enc.st = .busy → s.enc.rp ≤ s.enc.ilen →
      let rem := s.enc.ilen - s.enc.rp
      let b := fun j => readInput s .enc (s.enc.rp + j)
      ∃ i, turn .enc s = exec i s ∧
        (3 ≤ rem → i = .enc3 (b 0) (b 1) (b 2)) ∧ (rem = 2 → i = .enc2 (b 0) (b 1)) ∧
        (rem = 1 → i = .enc1 (b 0)) ∧ (rem = 0 → i = .encFinish))

/-- R97: the length of `encode(x)` is `4 * ceil(len(x) / 3)`, so a multiple of 4; `encode` is injective; and that is the
length ENC.FINISH leaves in OLEN. -/
def Obligations.EncodeLengthAndInjectivity : Prop :=
  (∀ (c : Config) (x : List Byte), (codecEncode c x).length = 4 * ((x.length + 2) / 3) ∧
    (codecEncode c x).length % 4 = 0) ∧
  (∀ (c : Config) (x y : List Byte), c.WF → codecEncode c x = codecEncode c y → x = y) ∧
  (∀ s t : State, Inv s → exec .encFinish s = .next t → t.enc.olen = 4 * ((t.enc.ilen + 2) / 3))

/-- R98: `encode(x)` ends in 0, 2 or 1 padding symbols as `len(x) mod 3` is 0, 1 or 2; every other symbol is a value
symbol, which is never PAD. -/
def Obligations.EncodeShape : Prop :=
  ∀ (c : Config) (x : List Byte), c.WF →
    let out := codecEncode c x
    let p := if x.length % 3 = 0 then 0 else if x.length % 3 = 1 then 2 else 1
    ∀ i e, out[i]? = some e →
      (out.length ≤ i + p → e = c.pad) ∧ (i + p < out.length → e ≠ c.pad ∧ ∃ v : Val, e = symOf c v)

/-- R101, R102, and the end state of R99: after START, exactly `ceil(ILEN / 3) + 1` turns of ENC lead to DONE, with OK, the length of
`encode` of the input and its symbols in the output buffer; nothing outside ENC changes. -/
def Obligations.EncTransactionComputesEncode : Prop :=
  ∀ s : State, Inv s → s.enc.st ≠ .busy →
    ∃ u, exec .encStart s = .next u ∧
      (∀ k, k < encSteps s.enc.ilen → ∃ v, manyTurns .enc k u = .next v ∧ v.enc.st = .busy) ∧
      ∃ t, manyTurns .enc (encSteps s.enc.ilen) u = .next t ∧
        t.enc.st = .done ∧ t.enc.err = none ∧
        t.enc.olen = (codecEncode s.cfg (inputOf s .enc)).length ∧
        holdsOutput t.enc (codecEncode s.cfg (inputOf s .enc)) ∧
        t.enc.ibuf = s.enc.ibuf ∧ t.enc.ilen = s.enc.ilen ∧
        t = { s with enc := t.enc }

/-! ## The decoder (42_decoder.md) -/

/-- From R115: DEC.START sets RP, WP, OLEN, ERR, PADERR and UNKERR to 0 and ST to BUSY, is ignored while BUSY, and changes
nothing else. That the field `obuf` stays as it was is the model's choice (log entry 15): R187 and R54 leave DEC.OBUF
unspecified from an accepted START until DONE, and no read of the host shows it then. -/
def Obligations.DecStartBeginsATransaction : Prop :=
  ∀ s : State, s.cfg.WF →
    (s.dec.st = .busy → exec .decStart s = .next s) ∧
    (s.dec.st ≠ .busy → exec .decStart s =
      .next { s with
        dec := { s.dec with rp := 0, wp := 0, olen := 0, err := none, st := .busy }
        paderr := false
        unkerr := false })

/-- R116: DEC.LENFAIL, taken when ILEN mod 4 is not 0, sets ERR to MalformedLength, OLEN to 0 and ST to DONE, and changes
nothing else. -/
def Obligations.DecLenfailReportsMalformedLength : Prop :=
  ∀ s : State, s.cfg.WF → s.dec.st = .busy → s.dec.ilen % 4 ≠ 0 →
    turn .dec s = exec .decLenfail s ∧
    exec .decLenfail s =
      .next { s with dec := { s.dec with err := some .malformedLength, olen := 0, st := .done } }

/-- R117: DEC4 writes the three bytes of four values at WP and moves RP by 4 and WP by 3; every other element and
register is as before. -/
def Obligations.Dec4DecodesAFullGroup : Prop :=
  ∀ s : State, s.cfg.WF → s.dec.st = .busy → s.dec.ilen % 4 = 0 → s.dec.rp < s.dec.ilen →
    s.dec.rp + 4 ≤ ibufSize s.cfg .dec → s.dec.wp + 3 ≤ obufSize s.cfg .dec →
    ∀ v0 v1 v2 v3 : Val, ∃ t, exec (.dec4 v0 v1 v2 v3) s = .next t ∧
      t.dec.obuf.read s.dec.wp = some ((v0.setWidth 8 <<< 2) ||| (v1.setWidth 8 >>> 4)) ∧
      t.dec.obuf.read (s.dec.wp + 1) = some (((v1.setWidth 8 &&& 0xF#8) <<< 4) ||| (v2.setWidth 8 >>> 2)) ∧
      t.dec.obuf.read (s.dec.wp + 2) = some (((v2.setWidth 8 &&& 0x3#8) <<< 6) ||| v3.setWidth 8) ∧
      (∀ i, (i < s.dec.wp ∨ s.dec.wp + 3 ≤ i) → t.dec.obuf.read i = s.dec.obuf.read i) ∧
      t = { s with dec := { s.dec with obuf := t.dec.obuf, rp := s.dec.rp + 4, wp := s.dec.wp + 3 } }

/-- R118: DEC3, in the last group, writes two bytes at WP and moves RP by 4 and WP by 2; every other element and register
is as before. -/
def Obligations.Dec3DecodesAGroupWithOnePad : Prop :=
  ∀ s : State, s.cfg.WF → s.dec.st = .busy → s.dec.ilen % 4 = 0 → s.dec.rp + 4 = s.dec.ilen →
    s.dec.rp + 4 ≤ ibufSize s.cfg .dec → s.dec.wp + 2 ≤ obufSize s.cfg .dec →
    ∀ v0 v1 v2 : Val, ∃ t, exec (.dec3 v0 v1 v2) s = .next t ∧
      t.dec.obuf.read s.dec.wp = some ((v0.setWidth 8 <<< 2) ||| (v1.setWidth 8 >>> 4)) ∧
      t.dec.obuf.read (s.dec.wp + 1) = some (((v1.setWidth 8 &&& 0xF#8) <<< 4) ||| (v2.setWidth 8 >>> 2)) ∧
      (∀ i, (i < s.dec.wp ∨ s.dec.wp + 2 ≤ i) → t.dec.obuf.read i = s.dec.obuf.read i) ∧
      t = { s with dec := { s.dec with obuf := t.dec.obuf, rp := s.dec.rp + 4, wp := s.dec.wp + 2 } }

/-- R119: DEC2, in the last group, writes one byte at WP and moves RP by 4 and WP by 1; every other element and register
is as before. -/
def Obligations.Dec2DecodesAGroupWithTwoPads : Prop :=
  ∀ s : State, s.cfg.WF → s.dec.st = .busy → s.dec.ilen % 4 = 0 → s.dec.rp + 4 = s.dec.ilen →
    s.dec.rp + 4 ≤ ibufSize s.cfg .dec → s.dec.wp + 1 ≤ obufSize s.cfg .dec →
    ∀ v0 v1 : Val, ∃ t, exec (.dec2 v0 v1) s = .next t ∧
      t.dec.obuf.read s.dec.wp = some ((v0.setWidth 8 <<< 2) ||| (v1.setWidth 8 >>> 4)) ∧
      (∀ i, (i < s.dec.wp ∨ s.dec.wp + 1 ≤ i) → t.dec.obuf.read i = s.dec.obuf.read i) ∧
      t = { s with dec := { s.dec with obuf := t.dec.obuf, rp := s.dec.rp + 4, wp := s.dec.wp + 1 } }

/-- R120: DEC.GRPERR, for a pattern that selects none of the other three, sets PADERR when the padding is not legal and
UNKERR when a class is UNK (at least one of them), keeps a flag that is set, moves RP by 4, and writes nothing else. -/
def Obligations.DecGrperrNotesAnInvalidGroup : Prop :=
  ∀ (s : State) (k0 k1 k2 k3 : SymClass) (last : Bool), s.cfg.WF →
    s.dec.st = .busy → s.dec.ilen % 4 = 0 → s.dec.rp < s.dec.ilen →
    s.dec.rp + 4 ≤ ibufSize s.cfg .dec → s.dec.wp ≤ obufSize s.cfg .dec →
    (last = true ↔ s.dec.rp + 4 = s.dec.ilen) →
    (Instr.decGrperr k0 k1 k2 k3 last).wf s.cfg = true →
    let anyP := k0 = .padc ∨ k1 = .padc ∨ k2 = .padc ∨ k3 = .padc
    let padlegal := ¬ anyP ∨ (last = true ∧ k0 ≠ .padc ∧ k1 ≠ .padc ∧ k3 = .padc)
    let hasunk := k0 = .unk ∨ k1 = .unk ∨ k2 = .unk ∨ k3 = .unk
    (¬ padlegal ∨ hasunk) ∧
    ∃ t, exec (.decGrperr k0 k1 k2 k3 last) s = .next t ∧
      (t.paderr = true ↔ s.paderr = true ∨ ¬ padlegal) ∧
      (t.unkerr = true ↔ s.unkerr = true ∨ hasunk) ∧
      t = { s with dec := { s.dec with rp := s.dec.rp + 4 }, paderr := t.paderr, unkerr := t.unkerr }

/-- R121: DEC.FINISH, taken when ILEN mod 4 = 0 and RP = ILEN, reports MisplacedPadding when PADERR is set, else
UnknownSymbol when UNKERR is set (OLEN 0 in both cases), else OK with OLEN = WP; ST becomes DONE; nothing else changes. -/
def Obligations.DecFinishReportsTheOutcome : Prop :=
  ∀ s : State, s.cfg.WF → s.dec.st = .busy → s.dec.ilen % 4 = 0 → s.dec.rp = s.dec.ilen →
    turn .dec s = exec .decFinish s ∧
    (s.paderr = true → exec .decFinish s =
      .next { s with dec := { s.dec with err := some .misplacedPadding, olen := 0, st := .done } }) ∧
    (s.paderr = false → s.unkerr = true → exec .decFinish s =
      .next { s with dec := { s.dec with err := some .unknownSymbol, olen := 0, st := .done } }) ∧
    (s.paderr = false → s.unkerr = false → exec .decFinish s =
      .next { s with dec := { s.dec with err := none, olen := s.dec.wp, st := .done } })

/-- R122: while BUSY exactly one step is taken: LENFAIL on a bad length, else while RP < ILEN the group step that the
classes of the four codes at RP and `last` select, else FINISH; while not BUSY DEC does nothing. -/
def Obligations.DecStepIsSelectedByStateAndGroup : Prop :=
  ∀ s : State, s.cfg.WF →
    (s.dec.st ≠ .busy → turn .dec s = .next s) ∧
    (s.dec.st = .busy → s.dec.rp ≤ s.dec.ilen →
      let k := fun j => classOf s.cfg (readInput s .dec (s.dec.rp + j))
      let last := decide (s.dec.rp + 4 = s.dec.ilen)
      ∃ i, turn .dec s = exec i s ∧
        (s.dec.ilen % 4 ≠ 0 → i = .decLenfail) ∧
        (s.dec.ilen % 4 = 0 → s.dec.rp = s.dec.ilen → i = .decFinish) ∧
        (s.dec.ilen % 4 = 0 → s.dec.rp < s.dec.ilen →
          (∃ v0 v1 v2 v3, i = .dec4 v0 v1 v2 v3 ∧
            k 0 = .val v0 ∧ k 1 = .val v1 ∧ k 2 = .val v2 ∧ k 3 = .val v3) ∨
          (∃ v0 v1 v2, i = .dec3 v0 v1 v2 ∧ last = true ∧
            k 0 = .val v0 ∧ k 1 = .val v1 ∧ k 2 = .val v2 ∧ k 3 = .padc) ∨
          (∃ v0 v1, i = .dec2 v0 v1 ∧ last = true ∧
            k 0 = .val v0 ∧ k 1 = .val v1 ∧ k 2 = .padc ∧ k 3 = .padc) ∨
          (i = .decGrperr (k 0) (k 1) (k 2) (k 3) last ∧ selectGroup (k 0) (k 1) (k 2) (k 3) last = .grperr)))

/-- From R70: which group step each class pattern selects, in the last group and in any other: DEC4 for VVVV, DEC3 for VVVP in
the last group, DEC2 for VVPP in the last group, DEC.GRPERR for every other pattern. -/
def Obligations.PatternSelectsTheGroupStep : Prop :=
  ∀ (k0 k1 k2 k3 : SymClass) (last : Bool),
    let V := fun k : SymClass => ∃ v, k = .val v
    (selectGroup k0 k1 k2 k3 last = .dec4 ↔ V k0 ∧ V k1 ∧ V k2 ∧ V k3) ∧
    (selectGroup k0 k1 k2 k3 last = .dec3 ↔ last = true ∧ V k0 ∧ V k1 ∧ V k2 ∧ k3 = .padc) ∧
    (selectGroup k0 k1 k2 k3 last = .dec2 ↔ last = true ∧ V k0 ∧ V k1 ∧ k2 = .padc ∧ k3 = .padc) ∧
    (selectGroup k0 k1 k2 k3 last = .grperr ↔
      decode (groupCode k0 k1 k2 k3 last) = .ok (.instr (.decGrperr k0 k1 k2 k3 last)))

/-- R111, R112, R113, R114: `decode` reports MalformedLength exactly when the length is not a multiple of 4; else
MisplacedPadding exactly when the padding symbols are not a suffix of length 0, 1 or 2; else UnknownSymbol exactly when
some symbol has class UNK; else it succeeds. -/
def Obligations.DecodeReportsTheLowestFailedCheck : Prop :=
  ∀ (c : Config) (x : List (BitVec 8)),
    let padOk := ∃ p, p ≤ 2 ∧ p ≤ x.length ∧ ∀ i, i < x.length → (x[i]? = some c.pad ↔ x.length ≤ i + p)
    let unknown := ∃ e, e ∈ x ∧ classOf c e = .unk
    (codecDecode c x = .error .malformedLength ↔ x.length % 4 ≠ 0) ∧
    (codecDecode c x = .error .misplacedPadding ↔ x.length % 4 = 0 ∧ ¬ padOk) ∧
    (codecDecode c x = .error .unknownSymbol ↔ x.length % 4 = 0 ∧ padOk ∧ unknown) ∧
    ((∃ y, codecDecode c x = .ok y) ↔ x.length % 4 = 0 ∧ padOk ∧ ¬ unknown)

/-- R125: an accepted input of length `n` with `p` padding symbols decodes to `3 * (n div 4) - p` bytes. -/
def Obligations.DecodeLength : Prop :=
  ∀ (c : Config) (x : List (BitVec 8)) (y : List Byte), c.WF → codecDecode c x = .ok y →
    x.count c.pad ≤ 2 ∧ y.length + x.count c.pad = 3 * (x.length / 4)

/-- R126: `decode(encode(x)) = Ok(x)` for every `x`; in hardware terms DEC, run on what ENC put out, ends with OK, the
length and the bytes of `x`; and `DEC.ILEN` is wide enough for every `ENC.OLEN`. -/
def Obligations.DecodeInvertsEncode : Prop :=
  (∀ (c : Config) (x : List Byte), c.WF → codecDecode c (codecEncode c x) = .ok x) ∧
  (∀ (s : State) (x : List Byte), Inv s → s.dec.st ≠ .busy → inputOf s .dec = codecEncode s.cfg x →
    ∃ u t, exec .decStart s = .next u ∧ manyTurns .dec (decSteps s.dec.ilen) u = .next t ∧
      t.dec.st = .done ∧ t.dec.err = none ∧ t.dec.olen = x.length ∧ holdsOutput t.dec x) ∧
  (∀ s : State, Inv s → s.enc.olen < 2 ^ ilenWidth s.cfg .dec)

/-- R72: the two low bits of `v2` in DEC3 and the four low bits of `v1` in DEC2 reach no byte: a string that ends in such a
group, whatever groups stand before it, decodes to the same outcome whatever those bits are, and without an error when the
groups before it do and hold no padding. The example: "Zh==" decodes as "Zg==" does, and that byte encodes to "Zg==". -/
def Obligations.DroppedBitsAreIgnored : Prop :=
  (∀ (c : Config) (x : List (BitVec 8)) (v0 v1 v2 w2 : Val), c.WF → x.length % 4 = 0 → v2 >>> 2 = w2 >>> 2 →
    codecDecode c (x ++ [symOf c v0, symOf c v1, symOf c v2, c.pad]) =
      codecDecode c (x ++ [symOf c v0, symOf c v1, symOf c w2, c.pad]) ∧
    ∀ y, codecDecode c x = .ok y → c.pad ∉ x →
      codecDecode c (x ++ [symOf c v0, symOf c v1, symOf c v2, c.pad]) = .ok (y ++ [decB0 v0 v1, decB1 v1 v2])) ∧
  (∀ (c : Config) (x : List (BitVec 8)) (v0 v1 w1 : Val), c.WF → x.length % 4 = 0 → v1 >>> 4 = w1 >>> 4 →
    codecDecode c (x ++ [symOf c v0, symOf c v1, c.pad, c.pad]) =
      codecDecode c (x ++ [symOf c v0, symOf c w1, c.pad, c.pad]) ∧
    ∀ y, codecDecode c x = .ok y → c.pad ∉ x →
      codecDecode c (x ++ [symOf c v0, symOf c v1, c.pad, c.pad]) = .ok (y ++ [decB0 v0 v1])) ∧
  codecDecode classicConfig [0x5A#8, 0x68#8, 0x3D#8, 0x3D#8] = .ok [0x66#8] ∧
  codecDecode classicConfig [0x5A#8, 0x67#8, 0x3D#8, 0x3D#8] = .ok [0x66#8] ∧
  codecEncode classicConfig [0x66#8] = [0x5A#8, 0x67#8, 0x3D#8, 0x3D#8]

/-- R128, and the end state of R123: after START, 1 turn of DEC (bad length) or `ILEN div 4 + 1` turns lead to DONE, with the outcome of
`decode` of the input: its error and OLEN 0, or OK, its length and its bytes in the output buffer; nothing outside DEC
changes. -/
def Obligations.DecTransactionComputesDecode : Prop :=
  ∀ s : State, Inv s → s.dec.st ≠ .busy →
    ∃ u, exec .decStart s = .next u ∧
      (∀ k, k < decSteps s.dec.ilen → ∃ v, manyTurns .dec k u = .next v ∧ v.dec.st = .busy) ∧
      ∃ t, manyTurns .dec (decSteps s.dec.ilen) u = .next t ∧
        t.dec.st = .done ∧
        (∀ e, codecDecode s.cfg (inputOf s .dec) = .error e → t.dec.err = some e ∧ t.dec.olen = 0) ∧
        (∀ y, codecDecode s.cfg (inputOf s .dec) = .ok y →
          t.dec.err = none ∧ t.dec.olen = y.length ∧ holdsOutput t.dec y) ∧
        t.dec.ibuf = s.dec.ibuf ∧ t.dec.ilen = s.dec.ilen ∧
        t = { s with dec := t.dec, paderr := t.paderr, unkerr := t.unkerr }

/-- R103, R129: the empty input: both functions give the empty sequence; on ILEN = 0 START and one turn lead to DONE, OK
and OLEN = 0, and no element is written. -/
def Obligations.EmptyInputGivesEmptyOutput : Prop :=
  (∀ c : Config, codecEncode c [] = [] ∧ codecDecode c [] = .ok []) ∧
  (∀ s : State, s.cfg.WF → s.enc.st ≠ .busy → s.enc.ilen = 0 →
    ∃ u, exec .encStart s = .next u ∧
      turn .enc u = .next { s with enc := { s.enc with rp := 0, wp := 0, olen := 0, err := none, st := .done } }) ∧
  (∀ s : State, s.cfg.WF → s.dec.st ≠ .busy → s.dec.ilen = 0 →
    ∃ u, exec .decStart s = .next u ∧
      turn .dec u = .next { s with
        dec := { s.dec with rp := 0, wp := 0, olen := 0, err := none, st := .done }
        paderr := false
        unkerr := false })

/-- The model's choice (log entry 7), for a unit step the step relation of R157 does not enable: it is a fault, and
nothing else is claimed of it. -/
def Obligations.StepThatIsNotEnabledFaults : Prop :=
  ∀ (s : State) (i : Instr), s.cfg.WF →
    ((∃ b0 b1 b2, i = .enc3 b0 b1 b2) ∧ ¬ (s.enc.st = .busy ∧ s.enc.rp + 3 ≤ s.enc.ilen) ∨
     (∃ b0 b1, i = .enc2 b0 b1) ∧ ¬ (s.enc.st = .busy ∧ s.enc.rp + 2 = s.enc.ilen) ∨
     (∃ b0, i = .enc1 b0) ∧ ¬ (s.enc.st = .busy ∧ s.enc.rp + 1 = s.enc.ilen) ∨
     i = .encFinish ∧ ¬ (s.enc.st = .busy ∧ s.enc.rp = s.enc.ilen) ∨
     i = .decLenfail ∧ ¬ (s.dec.st = .busy ∧ s.dec.ilen % 4 ≠ 0) ∨
     (∃ v0 v1 v2 v3, i = .dec4 v0 v1 v2 v3) ∧
       ¬ (s.dec.st = .busy ∧ s.dec.ilen % 4 = 0 ∧ s.dec.rp < s.dec.ilen) ∨
     ((∃ v0 v1 v2, i = .dec3 v0 v1 v2) ∨ (∃ v0 v1, i = .dec2 v0 v1)) ∧
       ¬ (s.dec.st = .busy ∧ s.dec.ilen % 4 = 0 ∧ s.dec.rp + 4 = s.dec.ilen) ∨
     (∃ k0 k1 k2 k3 last, i = .decGrperr k0 k1 k2 k3 last ∧
       ¬ (s.dec.st = .busy ∧ s.dec.ilen % 4 = 0 ∧ s.dec.rp < s.dec.ilen ∧
          (last = true ↔ s.dec.rp + 4 = s.dec.ilen) ∧ selectGroup k0 k1 k2 k3 last = .grperr)) ∨
     i = .decFinish ∧ ¬ (s.dec.st = .busy ∧ s.dec.ilen % 4 = 0 ∧ s.dec.rp = s.dec.ilen)) →
    exec i s = .fault .stepNotEnabled

/-! ## The host's accesses (43_host_interface.md) -/

/-- R141: H.WR_IBUF writes the one element while the unit is not BUSY, is ignored while it is, and changes nothing else. -/
def Obligations.HostWritesAnInputElement : Prop :=
  ∀ (s : State) (u : UnitId) (i : Nat) (e : BitVec 8), s.cfg.WF → i < ibufSize s.cfg u →
    ((s.unit u).st = .busy → exec (.hWrIbuf u i e) s = .next s) ∧
    ((s.unit u).st ≠ .busy → ∃ t, exec (.hWrIbuf u i e) s = .next t ∧
      (t.unit u).ibuf.read i = some e ∧ (∀ j, j ≠ i → (t.unit u).ibuf.read j = (s.unit u).ibuf.read j) ∧
      t = s.setUnit u { s.unit u with ibuf := (t.unit u).ibuf })

/-- R142: H.WR_ILEN sets the length while the unit is not BUSY, is ignored while it is, and changes nothing else. -/
def Obligations.HostSetsTheInputLength : Prop :=
  ∀ (s : State) (u : UnitId) (n : Nat), s.cfg.WF → n < 2 ^ ilenWidth s.cfg u →
    exec (.hWrIlen u n) s =
      .next (if (s.unit u).st = .busy then s else s.setUnit u { s.unit u with ilen := n })

/-- R143: a write to CTRL with bit 0 = 1 is ENC.START or DEC.START whatever bits 7:1 are; with bit 0 = 0 it changes
nothing. -/
def Obligations.HostStartIsTheUnitsStart : Prop :=
  ∀ (s : State) (d : BitVec 8), s.cfg.WF →
    (d.getLsbD 0 = true → exec (.hStart .enc d) s = exec .encStart s ∧ exec (.hStart .dec d) s = exec .decStart s) ∧
    (d.getLsbD 0 = false → exec (.hStart .enc d) s = .next s ∧ exec (.hStart .dec d) s = .next s) ∧
    (∀ u, ∃ t, exec (.hStart u d) s = .next t)

/-- R144: H.RD_STATUS gives bits 1:0 = ST, bits 3:2 = ERR, bits 7:4 = 0 and has no side effect; in every state that meets
the invariant of the reachable ones the values are 0x00, 0x01, 0x02, and for DEC also 0x06, 0x0A, 0x0E, and 0x01 while
BUSY. -/
def Obligations.HostReadsTheStatus : Prop :=
  ∀ (s : State) (u : UnitId), s.cfg.WF →
    ∃ b : BitVec 8, exec (.hRdStatus u) s = .next (s.answering (.reg8 b)) ∧
      slice 0 2 b = (match (s.unit u).st with | .idle => 0#2 | .busy => 1#2 | .done => 2#2) ∧
      slice 2 2 b = (match (s.unit u).err with
        | none => 0#2 | some .malformedLength => 1#2 | some .misplacedPadding => 2#2 | some .unknownSymbol => 3#2) ∧
      slice 4 4 b = 0#4 ∧
      (Inv s → (b = 0x00#8 ∨ b = 0x01#8 ∨ b = 0x02#8 ∨ u = .dec ∧ (b = 0x06#8 ∨ b = 0x0A#8 ∨ b = 0x0E#8)) ∧
        ((s.unit u).st = .busy → b = 0x01#8))

/-- R145: H.RD_OLEN gives OLEN while the unit is not BUSY, and while it is some value of the register's width; CORE is
unchanged either way. -/
def Obligations.HostReadsTheOutputLength : Prop :=
  ∀ (s : State) (u : UnitId), s.cfg.WF →
    ((s.unit u).st ≠ .busy → exec (.hRdOlen u) s = .next (s.answering (.len (s.unit u).olen))) ∧
    ((s.unit u).st = .busy → ∃ n, n < 2 ^ (s.cfg.lenW + 1) ∧
      exec (.hRdOlen u) s = .next ((s.answering (.len n)).useFree))

/-- From R146: H.RD_OBUF gives the element of the result when ST = DONE and i < OLEN, and otherwise some element value; CORE is
unchanged either way. -/
def Obligations.HostReadsAnOutputElement : Prop :=
  ∀ (s : State) (u : UnitId) (i : Nat), s.cfg.WF → i < obufSize s.cfg u →
    (∀ e, (s.unit u).st = .done → i < (s.unit u).olen → (s.unit u).obuf.read i = some e →
      exec (.hRdObuf u i) s = .next (s.answering (.elem e))) ∧
    (Inv s → (s.unit u).st = .done → i < (s.unit u).olen → ∃ e, (s.unit u).obuf.read i = some e) ∧
    (¬ ((s.unit u).st = .done ∧ i < (s.unit u).olen) →
      ∃ e, exec (.hRdObuf u i) s = .next ((s.answering (.elem e)).useFree))

/-- From R147: H.RD_ILEN gives ILEN, H.RD_IBUF the element the host last wrote, in every state and without effect on CORE; an
element not written since reset gives the same value at every read until it is written. That ENCODE and DECODE, when executed,
write no element, because the writes of R151 and R152 are lines of the host's script, is the model's choice (log entry 8); so
is that a symbol-code row is a lookup (log entry 6). -/
def Obligations.HostReadsBackTheInput : Prop :=
  ∀ (s : State) (u : UnitId), s.cfg.WF →
    exec (.hRdIlen u) s = .next (s.answering (.len (s.unit u).ilen)) ∧
    ∀ i, i < ibufSize s.cfg u → ∃ e, exec (.hRdIbuf u i) s = .next (s.answering (.elem e)) ∧
      (∀ d, (s.unit u).ibuf.read i = some d → e = d) ∧
      ∀ (j : Instr) (t : State), exec j s = .next t → (∀ d, j ≠ .hWrIbuf u i d) →
        exec (.hRdIbuf u i) t = .next (t.answering (.elem e))

/-- From R148: while U is BUSY the writes to its IBUF, ILEN and CTRL change nothing, its STATUS, ILEN and IBUF read truly, and
an access to the other unit has the effect it has otherwise. -/
def Obligations.BusyUnitIgnoresWrites : Prop :=
  ∀ (s : State) (u : UnitId), s.cfg.WF → (s.unit u).st = .busy →
    (∀ i e, i < ibufSize s.cfg u → exec (.hWrIbuf u i e) s = .next s) ∧
    (∀ n, n < 2 ^ ilenWidth s.cfg u → exec (.hWrIlen u n) s = .next s) ∧
    (∀ d, exec (.hStart u d) s = .next s) ∧
    exec (.hRdStatus u) s = .next (s.answering (.reg8 (statusByte (s.unit u)))) ∧
    exec (.hRdIlen u) s = .next (s.answering (.len (s.unit u).ilen)) ∧
    (∀ i d, i < ibufSize s.cfg u → (s.unit u).ibuf.read i = some d →
      exec (.hRdIbuf u i) s = .next (s.answering (.elem d))) ∧
    (∀ (j : Instr) (x : CodecUnit), (∃ w, unitOf j = some w ∧ w ≠ u) →
      exec j (s.setUnit u x) = mapNext (fun t => t.setUnit u x) (exec j s))

/-- From R20, R21, R22, R146: a write to STATUS, OLEN or the OBUF window, or one to CTRL with bit 0 = 0, changes nothing; a read
of CTRL gives 0. -/
def Obligations.AccessesInTheWrongDirection : Prop :=
  ∀ (s : State) (u : UnitId) (d : Nat), s.cfg.WF →
    runCode (.write u (.reg 1) d) s = .next s ∧ runCode (.write u (.reg 3) d) s = .next s ∧
    (∀ i, i < obufSize s.cfg u → runCode (.write u (.obuf i) d) s = .next s) ∧
    (d < 256 → d % 2 = 0 → runCode (.write u (.reg 0) d) s = .next s) ∧
    runCode (.read u (.reg 0)) s = .next (s.answering (.reg8 0#8))

/-- 93_implementation_defined.md U1, U6: an access, read or write, to a register number above 3 or to an index beyond its
buffer is refused, and so is every operation under an ill-formed configuration. -/
def Obligations.WhatDoesNotExistIsRefused : Prop :=
  (∀ (s : State) (u : UnitId) (n d : Nat), s.cfg.WF → 3 < n →
    runCode (.read u (.reg n)) s = .refused (.undecodable .noSuchRegister) ∧
    runCode (.write u (.reg n) d) s = .refused (.undecodable .noSuchRegister)) ∧
  (∀ (s : State) (u : UnitId) (i : Nat) (e : BitVec 8), s.cfg.WF → ibufSize s.cfg u ≤ i →
    exec (.hRdIbuf u i) s = .refused .noSuchLocation ∧ exec (.hWrIbuf u i e) s = .refused .noSuchLocation) ∧
  (∀ (s : State) (u : UnitId) (i : Nat), s.cfg.WF → obufSize s.cfg u ≤ i →
    exec (.hRdObuf u i) s = .refused .noSuchLocation ∧
    ∀ d : Nat, runCode (.write u (.obuf i) d) s = .refused .noSuchLocation) ∧
  (∀ (s : State) (i : Instr), ¬ s.cfg.WF → exec i s = .refused .illFormedConfiguration)

/-- From R151, R152, for the lines of the expansions; that executing ENCODE or DECODE puts them before what is left of the
host's script and changes nothing else, and that they end in one line that stands for the reads still to come (`gather`,
`judge`), is the model's choice (log entry 8). -/
def Obligations.PseudoOperationsExpand : Prop :=
  ∀ (s : State) (x : List (BitVec 8)), s.cfg.WF →
    (x.length < 2 ^ s.cfg.lenW → ∃ ls : List Line,
      exec (.pEncode x) s = .next (s.pushLines ls) ∧ ls.length = x.length + 4 ∧
      (∀ i e, x[i]? = some e → ls[i]? = some (Line.op (encode (.hWrIbuf .enc i e)))) ∧
      ls[x.length]? = some (Line.op (encode (.hWrIlen .enc x.length))) ∧
      ls[x.length + 1]? = some (Line.op (encode (.hStart .enc 0x01#8))) ∧
      ls[x.length + 2]? = some (Line.poll .enc) ∧ ls[x.length + 3]? = some (Line.gather .enc)) ∧
    (x.length < 2 ^ (s.cfg.lenW + 1) → ∃ ls : List Line,
      exec (.pDecode x) s = .next (s.pushLines ls) ∧ ls.length = x.length + 4 ∧
      (∀ i e, x[i]? = some e → ls[i]? = some (Line.op (encode (.hWrIbuf .dec i e)))) ∧
      ls[x.length]? = some (Line.op (encode (.hWrIlen .dec x.length))) ∧
      ls[x.length + 1]? = some (Line.op (encode (.hStart .dec 0x01#8))) ∧
      ls[x.length + 2]? = some (Line.poll .dec) ∧ ls[x.length + 3]? = some Line.judge)

/-- From R151, R99, R50 (d): ENCODE, begun while ENC is not BUSY and worked through by the host, ends with the result
`encode(x)`: in whatever order the agents move (every list of turns without a reset), whatever the state of DEC and whatever
the host has still to do after it; and until then the host has not got to the rest of its script. That the order is a list,
what moves once the list is used up, and that the expansion stands in the script, are the model's choices (log entries 1 and
8). -/
def Obligations.EncodePseudoOperationDelivers : Prop :=
  ∀ (s : State) (x : List Byte), Inv s → s.enc.st ≠ .busy → .reset ∉ s.turns → x.length < 2 ^ s.cfg.lenW →
    ∃ t k r, exec (.pEncode x) s = .next t ∧ Sys2Proof.core.run k t = .next r ∧
      State.host r = ⟨s.host.script, some (.encoded (codecEncode s.cfg x)), codecEncode s.cfg x⟩ ∧
      ∀ j q, j < k → Sys2Proof.core.run j t = .next q → s.host.script.length < (State.host q).script.length

/-- From R152, R123, R50 (d): DECODE, begun while DEC is not BUSY and worked through by the host, ends with the result
`decode(s)`: in whatever order the agents move (every list of turns without a reset), whatever the state of ENC and whatever
the host has still to do after it; and until then the host has not got to the rest of its script. That the order is a list,
what moves once the list is used up, and that the expansion stands in the script, are the model's choices (log entries 1 and
8). -/
def Obligations.DecodePseudoOperationDelivers : Prop :=
  ∀ (s : State) (x : List (BitVec 8)), Inv s → s.dec.st ≠ .busy → .reset ∉ s.turns → x.length < 2 ^ (s.cfg.lenW + 1) →
    ∃ t k r, exec (.pDecode x) s = .next t ∧ Sys2Proof.core.run k t = .next r ∧
      (State.host r).script = s.host.script ∧
      (State.host r).answer = some (match codecDecode s.cfg x with | .ok y => .decoded y | .error e => .failed e) ∧
      ∀ j q, j < k → Sys2Proof.core.run j t = .next q → s.host.script.length < (State.host q).script.length

/-! ## The whole machine -/

/-- When the next step's code decodes to an operation, the step is the meaning of that operation: at a unit's turn on the
state whose turn is used up, at the host's turn on the state whose line is used up too, followed by what the host does with
the answer of that line (POLL, gather, take; nothing for an operation); a line that makes no access (judge, deliver) is what
the host does alone. Whose turn it is, the script and what the host may put in it are the model's choices (log entries 1,
13 and 21). -/
def Obligations.StepRunsTheDecodedOperation : Prop :=
  (∀ (s : State) (u : UnitId) (c : Code) (i : Instr),
    s.nextAgent = (match u with | .enc => .enc | .dec => .dec) → (s.unit u).st = .busy →
    unitFetch s.popTurn u = some c → decode c = .ok (.instr i) → step s = exec i s.popTurn) ∧
  (∀ (s : State) (c : Code) (rest : List Line) (i : Instr),
    s.nextAgent = .host → s.host.script = .op c :: rest → hostMayIssue c = true → decode c = .ok (.instr i) →
    step s = exec i { s.popTurn with host := { s.host with script := rest } }) ∧
  (∀ (s : State) (l : Line) (c : Code) (rest : List Line) (i : Instr),
    s.nextAgent = .host → s.host.script = l :: rest → lineCode l = some c → hostMayIssue c = true →
    decode c = .ok (.instr i) →
    step s = mapNext (lineThen l) (exec i { s.popTurn with host := { s.host with script := rest } })) ∧
  (∀ (s : State) (l : Line) (rest : List Line),
    s.cfg.WF → s.nextAgent = .host → s.host.script = l :: rest → lineCode l = none →
    step s = .next (lineThen l { s.popTurn with host := { s.host with script := rest } }))

/-- Words written out from the formats and rows of the spec decode to the operations they stand for. That the bare table word
0x2B, which matches the row SYM.62 and the format CTRL8 as well, is read as SYM.62 is the model's choice (log entry 9). -/
def Obligations.WordsDecodeToTheirRows : Prop :=
  decode (.g24 0b011001100110111101101111#24) = .ok (.instr (.enc3 0x66#8 0x6F#8 0x6F#8)) ∧
  decode (.q18 0b011001100110111100#18) = .ok (.instr (.dec3 25#6 38#6 60#6)) ∧
  decode (.sym8 0b01100110#8) = .ok (.instr .sym31) ∧
  decode (.ctrl8 .dec 0b11111111#8) = .ok (.instr .decStart) ∧
  decode (.write .dec (.ibuf 3) 0x76) = .ok (.instr (.hWrIbuf .dec 3 0x76#8)) ∧
  decode (.read .enc (.reg 1)) = .ok (.instr (.hRdStatus .enc)) ∧
  decodeTableWord 8 0x2B = some .sym62

/-- Decoding the code of a well-formed operation gives the operation back, every operand included. -/
def Obligations.DecodingAnEncodedOperation : Prop :=
  ∀ (c : Config) (i : Instr), i.wf c = true → decode (encode i) = .ok (.instr i)

/-- Every code that decodes to an operation, but for a CTRL8 word (whose bits 7:1 are ignored), is the code of that
operation: it has one meaning and one spelling. -/
def Obligations.EncodingADecodedOperation : Prop :=
  ∀ (c : Code) (i : Instr), decode c = .ok (.instr i) → (∀ u w, c ≠ .ctrl8 u w) → encode i = c

/-- From R25: the state after reset of any well-formed configuration meets the invariant of the reachable states. -/
def Obligations.ResetMeetsTheInvariant : Prop := ∀ c : Config, c.WF → Inv (State.resetWith c)

/-- From R26 (a) to (d): every step keeps the invariant of the reachable states. -/
def Obligations.StepKeepsTheInvariant : Prop := ∀ s t : State, Inv s → step s = .next t → Inv t

/-- In every state that meets the invariant no step ends in a fault, and every turn of a unit and of reset leads to a next
state. -/
def Obligations.ReachableStepsNeverFault : Prop :=
  ∀ s : State, Inv s → StepSafe s ∧ (s.nextAgent ≠ .host → ∃ t, step s = .next t)

/-- From R11, R12, R53: no step writes the configuration. -/
def Obligations.ConfigurationIsNeverWritten : Prop := ∀ s t : State, step s = .next t → t.cfg = s.cfg

/-- From R10 for the steps of the units, R148 and R140 for the host's accesses, R80 for the lookups: an operation of one unit
neither writes nor reads the state of the other, and a lookup touches neither. That a symbol-code row is a lookup is the
model's choice (log entry 6); that ENCODE and DECODE, when executed, touch neither unit because they only put their lines into
the host's script is the model's choice too (log entry 8): by R151 and R152 those lines then write to their unit and start
it. -/
def Obligations.UnitsAreIndependent : Prop :=
  ∀ (i : Instr) (s d : State),
    (unitOf i ≠ some .dec → exec i (withDecOf s d) = mapNext (withDecOf · d) (exec i s) ∧
      ∀ t, exec i s = .next t → withDecOf t s = t) ∧
    (unitOf i ≠ some .enc → exec i (withEncOf s d) = mapNext (withEncOf · d) (exec i s) ∧
      ∀ t, exec i s = .next t → withEncOf t s = t)

/-- From R50 (c), (d): a turn of ENC and a turn of DEC, taken in either order, lead to the same state. -/
def Obligations.TurnsOfTheUnitsCommute : Prop :=
  ∀ s a b : State, turn .enc s = .next a → turn .dec s = .next b →
    ∃ t, turn .dec a = .next t ∧ turn .enc b = .next t

/-- From R17: the only transitions of ST: IDLE to BUSY, BUSY to DONE, DONE to BUSY, and to IDLE by reset alone. -/
def Obligations.StatusTransitions : Prop :=
  ∀ (s t : State) (u : UnitId), step s = .next t →
    (s.nextAgent = .reset → (t.unit u).st = .idle) ∧
    (s.nextAgent ≠ .reset → (t.unit u).st = (s.unit u).st ∨
      (s.unit u).st = .idle ∧ (t.unit u).st = .busy ∨ (s.unit u).st = .busy ∧ (t.unit u).st = .done ∨
      (s.unit u).st = .done ∧ (t.unit u).st = .busy)

/-- From R26 (e), R140 ("to keep the result unchanged until the next START or reset"), R168: no step but a reset changes the
ILEN and IBUF of a BUSY unit, nor the ERR, OLEN and OBUF of a unit that stays DONE. The spec keeps `OBUF[i]` for `i < OLEN`
only; that the field `obuf` stays whole, beyond OLEN too, is the model's choice (log entry 15; R54 leaves it unspecified). -/
def Obligations.InputAndResultAreStable : Prop :=
  ∀ (s t : State) (u : UnitId), step s = .next t → s.nextAgent ≠ .reset →
    ((s.unit u).st = .busy → (t.unit u).ilen = (s.unit u).ilen ∧ (t.unit u).ibuf = (s.unit u).ibuf) ∧
    ((s.unit u).st = .done → (t.unit u).st = .done →
      (t.unit u).err = (s.unit u).err ∧ (t.unit u).olen = (s.unit u).olen ∧ (t.unit u).obuf = (s.unit u).obuf)

/-- From R163, R165: which operation can raise which error: only DEC.LENFAIL MalformedLength, only DEC.FINISH MisplacedPadding
and UnknownSymbol, and nothing an error of ENC. That ENCODE and DECODE raise nothing when executed, because they only put their
lines into the host's script, is the model's choice (log entry 8); so is that a symbol-code row is a lookup (log entry 6). -/
def Obligations.OnlyTwoOperationsRaise : Prop :=
  ∀ (i : Instr) (s t : State), exec i s = .next t →
    (t.enc.err = s.enc.err ∨ t.enc.err = none) ∧
    (t.dec.err = s.dec.err ∨ t.dec.err = none ∨ i = .decLenfail ∧ t.dec.err = some .malformedLength ∨
      i = .decFinish ∧ (t.dec.err = some .misplacedPadding ∨ t.dec.err = some .unknownSymbol))

/-- R180: a reset, in any state, puts both units in IDLE with ERR, ILEN, OLEN, pointers and flags 0 and no element of a
buffer known, and leaves the configuration; after it neither unit takes a step. -/
def Obligations.ResetPutsBothUnitsInIdle : Prop :=
  ∀ s : State, s.cfg.WF → ∃ t, turn .reset s = .next t ∧
    (∀ u, (t.unit u).st = .idle ∧ (t.unit u).err = none ∧ (t.unit u).ilen = 0 ∧ (t.unit u).olen = 0 ∧
      (t.unit u).rp = 0 ∧ (t.unit u).wp = 0 ∧
      ∀ i, (t.unit u).ibuf.read i = none ∧ (t.unit u).obuf.read i = none) ∧
    t.paderr = false ∧ t.unkerr = false ∧ t.cfg = s.cfg ∧
    turn .enc t = .next t ∧ turn .dec t = .next t

/-- From R193, R102, R128: from every state that meets the invariant, once no turn is prescribed, at most
`ceil(ENC.ILEN / 3) + 1` and `DEC.ILEN div 4 + 1` steps lead to a state in which neither unit is BUSY. The bound on the
machine's steps rests on the model's choice that BUSY units then move before the host (log entries 1 and 18). -/
def Obligations.BusyUnitsReachDone : Prop :=
  ∀ s : State, Inv s → s.turns = [] →
    ∃ k t, k ≤ encSteps s.enc.ilen + decSteps s.dec.ilen ∧ Sys2Proof.core.run k s = .next t ∧
      (State.enc t).st ≠ .busy ∧ (State.dec t).st ≠ .busy ∧
      ((s.enc.st = .busy → (State.enc t).st = .done) ∧ (s.dec.st = .busy → (State.dec t).st = .done))
end

