-- ==== Sys2Proof/Laws/Alphabet.lean ====
section
/-! SUPPORT. The well-formedness of a configuration in the words of 40_alphabet.md R81. -/

namespace Sys2Proof.Machine

/-- R81 (b), (c) and `LEN_W >= 2`: equal entries have equal values, and the padding symbol is no entry. -/
theorem wf_iff_distinct (c : Config) :
    c.WF ↔ (∀ v w : Val, symOf c v = symOf c w → v = w) ∧ (∀ v : Val, c.pad ≠ symOf c v) ∧ 2 ≤ c.lenW := by
  have hmem : ∀ p : Symbol, p ∈ c.alpha.toList ↔ ∃ v : Val, p = symOf c v := by
    intro p
    constructor
    · intro h
      obtain ⟨n, hn, rfl⟩ := List.getElem_of_mem h
      have hn' : n < 64 := by simpa using hn
      exact ⟨BitVec.ofNatLT n hn', by simp [symOf]⟩
    · rintro ⟨v, rfl⟩
      simp [symOf]
  have hinj : c.alpha.toList.Nodup ↔ ∀ v w : Val, symOf c v = symOf c w → v = w := by
    rw [List.nodup_iff_injective_get]
    constructor
    · intro h v w hvw
      have hv : v.toNat < c.alpha.toList.length := by simpa using v.isLt
      have hw : w.toNat < c.alpha.toList.length := by simpa using w.isLt
      have := @h ⟨v.toNat, hv⟩ ⟨w.toNat, hw⟩ (by simpa [symOf] using hvw)
      exact BitVec.eq_of_toNat_eq (by simpa using this)
    · rintro h ⟨a, ha⟩ ⟨b, hb⟩ hab
      have ha' : a < 64 := by simpa using ha
      have hb' : b < 64 := by simpa using hb
      have := h (BitVec.ofNatLT a ha') (BitVec.ofNatLT b hb') (by simpa [symOf] using hab)
      have := congrArg BitVec.toNat this
      simpa using this
  rw [Config.WF, List.nodup_cons, hmem, hinj]
  simp only [not_exists]
  tauto

end Sys2Proof.Machine
end

