-- ==== Sys2Proof/Laws/Memory.lean ====
section
/-! SUPPORT. The laws of the buffers: a read after a write, and that every write keeps the canonical form and the bounds. -/

namespace Sys2Proof.Machine

theorem Memory.read_write_same (m : Memory) (i : Nat) (e : BitVec 8) : (m.write i e).read i = some e := by
  induction m with
  | nil => simp [Memory.write, Memory.read]
  | cons c m ih =>
    obtain ⟨k, d⟩ := c
    simp only [Memory.write]
    split_ifs with h₁ h₂
    · simp [Memory.read]
    · simp [Memory.read]
    · simpa [Memory.read, h₂] using ih

theorem Memory.read_write_ne (m : Memory) {i j : Nat} (e : BitVec 8) (h : j ≠ i) : (m.write i e).read j = m.read j := by
  induction m with
  | nil => simp [Memory.write, Memory.read, h]
  | cons c m ih =>
    obtain ⟨k, d⟩ := c
    simp only [Memory.write]
    split_ifs with h₁ h₂
    · simp [Memory.read, h]
    · subst h₂; simp [Memory.read, h]
    · simp [Memory.read, ih]

theorem Memory.read_write (m : Memory) (i j : Nat) (e : BitVec 8) :
    (m.write i e).read j = if j = i then some e else m.read j := by
  split_ifs with h
  · subst h; exact m.read_write_same j e
  · exact m.read_write_ne e h

/-- What a block write leaves at every index: the block's element inside it, the old element outside. -/
theorem Memory.read_writeAll (m : Memory) (i j : Nat) (es : List (BitVec 8)) :
    (m.writeAll i es).read j = if i ≤ j ∧ j < i + es.length then es[j - i]? else m.read j := by
  induction es generalizing m i with
  | nil => simp [Memory.writeAll]
  | cons e es ih =>
    rw [Memory.writeAll, ih, m.read_write]
    by_cases hj : j = i
    · subst hj; simp
    · by_cases hb : i + 1 ≤ j ∧ j < i + 1 + es.length
      · have h₁ : i ≤ j ∧ j < i + (es.length + 1) := by omega
        have h₂ : j - i = (j - (i + 1)) + 1 := by omega
        simp [hb, h₁, h₂]
      · have h₁ : ¬ (i ≤ j ∧ j < i + (e :: es).length) := by simp; omega
        simp only [hb, h₁, hj, if_false]

/-- The first index of a list of cells, if it has one. -/
theorem Memory.wf_cons_iff (k : Nat) (d : BitVec 8) (m : Memory) :
    Memory.wf ((k, d) :: m) = true ↔ (∀ c ∈ m.head?, k < c.1) ∧ Memory.wf m = true := by
  cases m with
  | nil => simp [Memory.wf]
  | cons c m => obtain ⟨k', d'⟩ := c; simp [Memory.wf]

theorem Memory.head_write (m : Memory) (i : Nat) (e : BitVec 8) :
    ∀ c ∈ (m.write i e).head?, c.1 = i ∨ c ∈ m.head? := by
  cases m with
  | nil => simp [Memory.write]
  | cons c m =>
    obtain ⟨k, d⟩ := c
    simp only [Memory.write]
    split_ifs <;> simp

/-- A write keeps the canonical form. -/
theorem Memory.wf_write (m : Memory) (i : Nat) (e : BitVec 8) (h : m.wf = true) : (m.write i e).wf = true := by
  induction m with
  | nil => rfl
  | cons c m ih =>
    obtain ⟨k, d⟩ := c
    have hk := (Memory.wf_cons_iff k d m).mp h
    simp only [Memory.write]
    split_ifs with h₁ h₂
    · rw [Memory.wf_cons_iff]; simpa [h] using h₁
    · subst h₂
      rw [Memory.wf_cons_iff]; exact hk
    · rw [Memory.wf_cons_iff]
      refine ⟨fun c hc => ?_, ih hk.2⟩
      rcases Memory.head_write m i e c hc with hi | hm
      · omega
      · exact hk.1 c hm

theorem Memory.wf_writeAll (m : Memory) (i : Nat) (es : List (BitVec 8)) (h : m.wf = true) :
    (m.writeAll i es).wf = true := by
  induction es generalizing m i with
  | nil => exact h
  | cons e es ih => exact ih _ _ (m.wf_write i e h)

theorem Memory.mem_write (m : Memory) (i : Nat) (e : BitVec 8) : ∀ c ∈ m.write i e, c.1 = i ∨ c ∈ m := by
  induction m with
  | nil => simp [Memory.write]
  | cons c m ih =>
    obtain ⟨k, d⟩ := c
    simp only [Memory.write]
    split_ifs with h₁ h₂
    · intro c hc; rcases List.mem_cons.mp hc with rfl | hc
      · exact .inl rfl
      · exact .inr hc
    · subst h₂; intro c hc; rcases List.mem_cons.mp hc with rfl | hc
      · exact .inl rfl
      · exact .inr (List.mem_cons_of_mem _ hc)
    · intro c hc; rcases List.mem_cons.mp hc with rfl | hc
      · exact .inr (by simp)
      · rcases ih c hc with h | h
        · exact .inl h
        · exact .inr (List.mem_cons_of_mem _ h)

/-- A write inside the buffer keeps every index inside it. -/
theorem Memory.within_write (m : Memory) (n i : Nat) (e : BitVec 8) (h : m.within n = true) (hi : i < n) :
    (m.write i e).within n = true := by
  simp only [Memory.within, List.all_eq_true, decide_eq_true_eq] at *
  intro c hc
  rcases m.mem_write i e c hc with h' | h'
  · omega
  · exact h c h'

theorem Memory.within_writeAll (m : Memory) (n i : Nat) (es : List (BitVec 8)) (h : m.within n = true)
    (hi : i + es.length ≤ n) : (m.writeAll i es).within n = true := by
  induction es generalizing m i with
  | nil => exact h
  | cons e es ih =>
    simp only [List.length_cons] at hi
    exact ih _ _ (m.within_write n i e h (by omega)) (by omega)

end Sys2Proof.Machine
end

