-- ==== Sys2Proof/Laws/State.lean ====
section
/-! SUPPORT. One small fact for each field under each named update of a state or a unit. -/

namespace Sys2Proof.Machine

variable (s : State) (x : CodecUnit) (a : Answer) (ls : List Line) (r : List (BitVec 8)) (u : UnitId)

/-! Reading and replacing a unit. -/

@[simp] theorem State.unit_enc : s.unit .enc = s.enc := rfl
@[simp] theorem State.unit_dec : s.unit .dec = s.dec := rfl
@[simp] theorem State.setUnit_enc_enc : (s.setUnit .enc x).enc = x := rfl
@[simp] theorem State.setUnit_enc_dec : (s.setUnit .enc x).dec = s.dec := rfl
@[simp] theorem State.setUnit_dec_enc : (s.setUnit .dec x).enc = s.enc := rfl
@[simp] theorem State.setUnit_dec_dec : (s.setUnit .dec x).dec = x := rfl
@[simp] theorem State.setUnit_unit : (s.setUnit u x).unit u = x := by cases u <;> rfl
@[simp] theorem State.setUnit_cfg : (s.setUnit u x).cfg = s.cfg := by cases u <;> rfl
@[simp] theorem State.setUnit_paderr : (s.setUnit u x).paderr = s.paderr := by cases u <;> rfl
@[simp] theorem State.setUnit_unkerr : (s.setUnit u x).unkerr = s.unkerr := by cases u <;> rfl
@[simp] theorem State.setUnit_host : (s.setUnit u x).host = s.host := by cases u <;> rfl
@[simp] theorem State.setUnit_turns : (s.setUnit u x).turns = s.turns := by cases u <;> rfl
@[simp] theorem State.setUnit_freeCount : (s.setUnit u x).freeCount = s.freeCount := by cases u <;> rfl
@[simp] theorem State.setUnit_resets : (s.setUnit u x).resets = s.resets := by cases u <;> rfl

/-! Answers and free values. -/

@[simp] theorem State.answering_cfg : (s.answering a).cfg = s.cfg := rfl
@[simp] theorem State.answering_enc : (s.answering a).enc = s.enc := rfl
@[simp] theorem State.answering_dec : (s.answering a).dec = s.dec := rfl
@[simp] theorem State.answering_paderr : (s.answering a).paderr = s.paderr := rfl
@[simp] theorem State.answering_unkerr : (s.answering a).unkerr = s.unkerr := rfl
@[simp] theorem State.answering_unit : (s.answering a).unit u = s.unit u := by cases u <;> rfl
@[simp] theorem State.answering_turns : (s.answering a).turns = s.turns := rfl
@[simp] theorem State.answering_freeCount : (s.answering a).freeCount = s.freeCount := rfl
@[simp] theorem State.answering_resets : (s.answering a).resets = s.resets := rfl
@[simp] theorem State.answering_answer : (s.answering a).host.answer = some a := rfl
@[simp] theorem State.answering_script : (s.answering a).host.script = s.host.script := rfl
@[simp] theorem State.answering_gathered : (s.answering a).host.gathered = s.host.gathered := rfl

@[simp] theorem State.useFree_cfg : s.useFree.cfg = s.cfg := rfl
@[simp] theorem State.useFree_enc : s.useFree.enc = s.enc := rfl
@[simp] theorem State.useFree_dec : s.useFree.dec = s.dec := rfl
@[simp] theorem State.useFree_paderr : s.useFree.paderr = s.paderr := rfl
@[simp] theorem State.useFree_unkerr : s.useFree.unkerr = s.unkerr := rfl
@[simp] theorem State.useFree_unit : s.useFree.unit u = s.unit u := by cases u <;> rfl
@[simp] theorem State.useFree_turns : s.useFree.turns = s.turns := rfl
@[simp] theorem State.useFree_host : s.useFree.host = s.host := rfl
@[simp] theorem State.useFree_freeCount : s.useFree.freeCount = s.freeCount + 1 := rfl
@[simp] theorem State.useFree_resets : s.useFree.resets = s.resets := rfl

/-! The script, the gathered elements, the turns. -/

@[simp] theorem State.pushLines_cfg : (s.pushLines ls).cfg = s.cfg := rfl
@[simp] theorem State.pushLines_enc : (s.pushLines ls).enc = s.enc := rfl
@[simp] theorem State.pushLines_dec : (s.pushLines ls).dec = s.dec := rfl
@[simp] theorem State.pushLines_paderr : (s.pushLines ls).paderr = s.paderr := rfl
@[simp] theorem State.pushLines_unkerr : (s.pushLines ls).unkerr = s.unkerr := rfl
@[simp] theorem State.pushLines_turns : (s.pushLines ls).turns = s.turns := rfl
@[simp] theorem State.pushLines_resets : (s.pushLines ls).resets = s.resets := rfl
@[simp] theorem State.pushLines_freeCount : (s.pushLines ls).freeCount = s.freeCount := rfl
@[simp] theorem State.pushLines_script : (s.pushLines ls).host.script = ls ++ s.host.script := rfl
@[simp] theorem State.pushLines_answer : (s.pushLines ls).host.answer = s.host.answer := rfl
@[simp] theorem State.pushLines_gathered : (s.pushLines ls).host.gathered = s.host.gathered := rfl

@[simp] theorem State.gather_cfg : (s.gather r).cfg = s.cfg := rfl
@[simp] theorem State.gather_enc : (s.gather r).enc = s.enc := rfl
@[simp] theorem State.gather_dec : (s.gather r).dec = s.dec := rfl
@[simp] theorem State.gather_paderr : (s.gather r).paderr = s.paderr := rfl
@[simp] theorem State.gather_unkerr : (s.gather r).unkerr = s.unkerr := rfl
@[simp] theorem State.gather_turns : (s.gather r).turns = s.turns := rfl
@[simp] theorem State.gather_resets : (s.gather r).resets = s.resets := rfl
@[simp] theorem State.gather_freeCount : (s.gather r).freeCount = s.freeCount := rfl
@[simp] theorem State.gather_script : (s.gather r).host.script = s.host.script := rfl
@[simp] theorem State.gather_answer : (s.gather r).host.answer = s.host.answer := rfl
@[simp] theorem State.gather_gathered : (s.gather r).host.gathered = r := rfl

@[simp] theorem State.popTurn_cfg : s.popTurn.cfg = s.cfg := rfl
@[simp] theorem State.popTurn_enc : s.popTurn.enc = s.enc := rfl
@[simp] theorem State.popTurn_dec : s.popTurn.dec = s.dec := rfl
@[simp] theorem State.popTurn_paderr : s.popTurn.paderr = s.paderr := rfl
@[simp] theorem State.popTurn_unkerr : s.popTurn.unkerr = s.unkerr := rfl
@[simp] theorem State.popTurn_host : s.popTurn.host = s.host := rfl
@[simp] theorem State.popTurn_freeCount : s.popTurn.freeCount = s.freeCount := rfl
@[simp] theorem State.popTurn_resets : s.popTurn.resets = s.resets := rfl
@[simp] theorem State.popTurn_unit : s.popTurn.unit u = s.unit u := by cases u <;> rfl

/-! What START, completion and a group step leave in a unit. -/

variable (n : Nat) (e : Option DecErr) (out : List (BitVec 8))

@[simp] theorem CodecUnit.started_st : x.started.st = .busy := rfl
@[simp] theorem CodecUnit.started_err : x.started.err = none := rfl
@[simp] theorem CodecUnit.started_ilen : x.started.ilen = x.ilen := rfl
@[simp] theorem CodecUnit.started_olen : x.started.olen = 0 := rfl
@[simp] theorem CodecUnit.started_rp : x.started.rp = 0 := rfl
@[simp] theorem CodecUnit.started_wp : x.started.wp = 0 := rfl
@[simp] theorem CodecUnit.started_ibuf : x.started.ibuf = x.ibuf := rfl
@[simp] theorem CodecUnit.started_obuf : x.started.obuf = x.obuf := rfl

@[simp] theorem CodecUnit.finished_st : (x.finished n e).st = .done := rfl
@[simp] theorem CodecUnit.finished_err : (x.finished n e).err = e := rfl
@[simp] theorem CodecUnit.finished_ilen : (x.finished n e).ilen = x.ilen := rfl
@[simp] theorem CodecUnit.finished_olen : (x.finished n e).olen = n := rfl
@[simp] theorem CodecUnit.finished_rp : (x.finished n e).rp = x.rp := rfl
@[simp] theorem CodecUnit.finished_wp : (x.finished n e).wp = x.wp := rfl
@[simp] theorem CodecUnit.finished_ibuf : (x.finished n e).ibuf = x.ibuf := rfl
@[simp] theorem CodecUnit.finished_obuf : (x.finished n e).obuf = x.obuf := rfl

@[simp] theorem CodecUnit.moved_st : (x.moved n out).st = x.st := rfl
@[simp] theorem CodecUnit.moved_err : (x.moved n out).err = x.err := rfl
@[simp] theorem CodecUnit.moved_ilen : (x.moved n out).ilen = x.ilen := rfl
@[simp] theorem CodecUnit.moved_olen : (x.moved n out).olen = x.olen := rfl
@[simp] theorem CodecUnit.moved_rp : (x.moved n out).rp = x.rp + n := rfl
@[simp] theorem CodecUnit.moved_wp : (x.moved n out).wp = x.wp + out.length := rfl
@[simp] theorem CodecUnit.moved_ibuf : (x.moved n out).ibuf = x.ibuf := rfl
@[simp] theorem CodecUnit.moved_obuf : (x.moved n out).obuf = x.obuf.writeAll x.wp out := rfl

end Sys2Proof.Machine
end

