-- ==== Sys2Proof/Laws/Ops.lean ====
section
/-! SUPPORT. One fact for each shared operation that says everything it can do when it answers a next state. -/

namespace Sys2Proof.Machine

variable {s t : State}

theorem underConfig_of_wf {r : Res} (h : s.cfg.WF) : underConfig s r = r := if_pos h

theorem underConfig_of_not_wf {r : Res} (h : ¬ s.cfg.WF) : underConfig s r = .refused .illFormedConfiguration := if_neg h

theorem underConfig_next {r : Res} : underConfig s r = .next t ↔ s.cfg.WF ∧ r = .next t := by
  unfold underConfig
  by_cases h : s.cfg.WF
  · rw [if_pos h]; exact ⟨fun e => ⟨h, e⟩, And.right⟩
  · rw [if_neg h]; exact ⟨nofun, fun e => absurd e.1 h⟩

theorem answerWith_next {a : Answer} : answerWith a s = .next t ↔ s.cfg.WF ∧ t = s.answering a := by
  rw [answerWith, underConfig_next, Host.Outcome.next.injEq, @eq_comm _ t]

theorem finishing_next {b : Bool} {s' : State} :
    finishing b s s' = .next t ↔ s.cfg.WF ∧ b = true ∧ t = s' := by
  unfold finishing
  rw [underConfig_next]
  cases b <;> simp [eq_comm]

theorem encGroup_next {b : Bool} {n : Nat} {out : List Symbol} :
    encGroup b n out s = .next t ↔
      s.cfg.WF ∧ b = true ∧ s.enc.rp + n ≤ ibufSize s.cfg .enc ∧ s.enc.wp + out.length ≤ obufSize s.cfg .enc ∧
        t = { s with enc := s.enc.moved n out } := by
  unfold encGroup
  rw [underConfig_next]
  cases b with
  | false => simp
  | true =>
    simp only [if_true]
    split_ifs with h
    · simp [h.1, h.2, eq_comm]
    · simp; tauto

theorem decGroup_next {b p k : Bool} {out : List Byte} :
    decGroup b out p k s = .next t ↔
      s.cfg.WF ∧ b = true ∧ s.dec.rp + 4 ≤ ibufSize s.cfg .dec ∧ s.dec.wp + out.length ≤ obufSize s.cfg .dec ∧
        t = { s with dec := s.dec.moved 4 out, paderr := p, unkerr := k } := by
  unfold decGroup
  rw [underConfig_next]
  cases b with
  | false => simp
  | true =>
    simp only [if_true]
    split_ifs with h
    · simp [h.1, h.2, eq_comm]
    · simp; tauto

theorem hostAccess_next {u : UnitId} {p : Place} {r : Res} :
    hostAccess u p s r = .next t ↔ s.cfg.WF ∧ placeExists s.cfg u p = true ∧ r = .next t := by
  unfold hostAccess
  rw [underConfig_next]
  split_ifs with h <;> simp [h]

theorem ignoreWrite_next {u : UnitId} {p : Place} :
    ignoreWrite u p s = .next t ↔ s.cfg.WF ∧ placeExists s.cfg u p = true ∧ t = s := by
  rw [ignoreWrite, hostAccess_next, Host.Outcome.next.injEq, @eq_comm _ t]

theorem readCtrl_next {u : UnitId} : readCtrl u s = .next t ↔ s.cfg.WF ∧ t = s.answering (.reg8 0#8) := by
  rw [readCtrl, hostAccess_next, Host.Outcome.next.injEq, @eq_comm _ t]
  simp [placeExists]

theorem startUnit_busy {u : UnitId} (h : (s.unit u).st = .busy) : startUnit u s = s := if_pos h

theorem startUnit_enc (h : s.enc.st ≠ .busy) : startUnit .enc s = { s with enc := s.enc.started } := if_neg h

theorem startUnit_dec (h : s.dec.st ≠ .busy) :
    startUnit .dec s = { s with dec := s.dec.started, paderr := false, unkerr := false } := if_neg h

/-- The memory that a group step leaves in the output buffer, read at any index. -/
theorem CodecUnit.read_moved (x : CodecUnit) (n i : Nat) (out : List (BitVec 8)) :
    (x.moved n out).obuf.read i = if x.wp ≤ i ∧ i < x.wp + out.length then out[i - x.wp]? else x.obuf.read i :=
  Memory.read_writeAll _ _ _ _

/-- What a code's run is, once the code is known to decode to an operation. -/
theorem runCode_instr {c : Code} {i : Instr} (h : decode c = .ok (.instr i)) : runCode c s = exec i s := by
  simp [runCode, h]

/-- What the host does with an answer changes only the host. -/
theorem lineThen_frame (l : Line) :
    (lineThen l s).cfg = s.cfg ∧ (lineThen l s).enc = s.enc ∧ (lineThen l s).dec = s.dec ∧
      (lineThen l s).paderr = s.paderr ∧ (lineThen l s).unkerr = s.unkerr ∧ (lineThen l s).turns = s.turns ∧
      (lineThen l s).freeCount = s.freeCount ∧ (lineThen l s).resets = s.resets := by
  cases l with
  | op c => simp [lineThen]
  | poll u => simp only [lineThen, pollThen]; split <;> (try split_ifs) <;> simp
  | judge => simp only [lineThen, judgeThen]; split <;> (try split) <;> simp
  | gather u => simp only [lineThen, gatherThen]; split <;> simp
  | take u i => simp only [lineThen, takeThen]; split <;> simp
  | deliver u => cases u <;> simp [lineThen, deliverThen]

end Sys2Proof.Machine
end

