-- ==== Sys2Proof/Laws/Effect.lean ====
section
/-! SUPPORT. Said once: everything an operation, a turn and a step can do to CORE when it answers a next state. -/

namespace Sys2Proof.Machine

/-- The two states have the same CORE; they may differ in the host, the turns and the number of free values used. -/
structure SameCore (s t : State) : Prop where
  cfg : t.cfg = s.cfg
  enc : t.enc = s.enc
  dec : t.dec = s.dec
  paderr : t.paderr = s.paderr
  unkerr : t.unkerr = s.unkerr
  resets : t.resets = s.resets

theorem SameCore.same {s : State} : SameCore s s := ⟨rfl, rfl, rfl, rfl, rfl, rfl⟩

theorem SameCore.trans {s t u : State} (h : SameCore s t) (k : SameCore t u) : SameCore s u :=
  ⟨k.cfg.trans h.cfg, k.enc.trans h.enc, k.dec.trans h.dec, k.paderr.trans h.paderr, k.unkerr.trans h.unkerr,
    k.resets.trans h.resets⟩

/-- `Change s t`: from the CORE of `s` one operation leads to exactly the CORE of `t`, guards included. -/
inductive Change (s t : State) : Prop
  /-- Reads, lookups, pseudo-operations, and whatever is ignored. -/
  | none (h : t = s)
  | startEnc (hb : s.enc.st ≠ .busy) (h : t = { s with enc := s.enc.started })
  | startDec (hb : s.dec.st ≠ .busy) (h : t = { s with dec := s.dec.started, paderr := false, unkerr := false })
  | writeInput (u : UnitId) (i : Nat) (e : BitVec 8) (hb : (s.unit u).st ≠ .busy) (hi : i < ibufSize s.cfg u)
      (h : t = s.setUnit u { s.unit u with ibuf := (s.unit u).ibuf.write i e })
  | writeLength (u : UnitId) (n : Nat) (hb : (s.unit u).st ≠ .busy) (hn : n < 2 ^ ilenWidth s.cfg u)
      (h : t = s.setUnit u { s.unit u with ilen := n })
  | encGroup (n : Nat) (out : List Symbol) (hb : s.enc.st = .busy) (hn : 1 ≤ n ∧ n ≤ 3) (ho : out.length = 4)
      (hl : n = 3 ∧ s.enc.rp + 3 ≤ s.enc.ilen ∨ s.enc.rp + n = s.enc.ilen)
      (hi : s.enc.rp + n ≤ ibufSize s.cfg .enc) (hw : s.enc.wp + 4 ≤ obufSize s.cfg .enc)
      (h : t = { s with enc := s.enc.moved n out })
  | encFinish (hb : s.enc.st = .busy) (hl : s.enc.rp = s.enc.ilen)
      (h : t = { s with enc := s.enc.finished s.enc.wp Option.none })
  | decLenfail (hb : s.dec.st = .busy) (hl : s.dec.ilen % 4 ≠ 0) (h : t = raiseDecodeError .malformedLength s)
  | decGroup (out : List Byte) (p k : Bool) (hb : s.dec.st = .busy) (h4 : s.dec.ilen % 4 = 0)
      (hl : s.dec.rp < s.dec.ilen) (ho : out.length ≤ 3) (hi : s.dec.rp + 4 ≤ ibufSize s.cfg .dec)
      (hw : s.dec.wp + out.length ≤ obufSize s.cfg .dec)
      (hp : s.paderr = true → p = true) (hk : s.unkerr = true → k = true)
      (h : t = { s with dec := s.dec.moved 4 out, paderr := p, unkerr := k })
  | decFinish (hb : s.dec.st = .busy) (h4 : s.dec.ilen % 4 = 0) (hl : s.dec.rp = s.dec.ilen) (h : t = decFinished s)

/-- A change of CORE, then something that leaves CORE alone. -/
def ChangesCore (s t : State) : Prop := ∃ u, Change s u ∧ SameCore u t

theorem ChangesCore.of_change {s t : State} (h : Change s t) : ChangesCore s t := ⟨t, h, .same⟩

theorem ChangesCore.of_same {s t : State} (h : SameCore s t) : ChangesCore s t := ⟨s, .none rfl, h⟩

theorem answering_same (a : Answer) (s : State) : SameCore s (s.answering a) := ⟨rfl, rfl, rfl, rfl, rfl, rfl⟩

theorem useFree_same (s : State) : SameCore s s.useFree := ⟨rfl, rfl, rfl, rfl, rfl, rfl⟩

theorem pushLines_same (ls : List Line) (s : State) : SameCore s (s.pushLines ls) := ⟨rfl, rfl, rfl, rfl, rfl, rfl⟩

theorem lineThen_same (l : Line) (s : State) : SameCore s (lineThen l s) :=
  have h := lineThen_frame (s := s) l
  ⟨h.1, h.2.1, h.2.2.1, h.2.2.2.1, h.2.2.2.2.1, h.2.2.2.2.2.2.2⟩

theorem startUnit_change (u : UnitId) (s : State) : Change s (startUnit u s) := by
  by_cases hb : (s.unit u).st = .busy
  · exact .none (startUnit_busy hb)
  · cases u
    · exact .startEnc hb (startUnit_enc hb)
    · exact .startDec hb (startUnit_dec hb)

variable {s t : State}

theorem answerWith_core {a : Answer} (h : answerWith a s = .next t) : ChangesCore s t :=
  (answerWith_next.mp h).2 ▸ .of_same (answering_same a s)

theorem answerClassOf_core {c : Symbol} (h : answerClassOf c s = .next t) : ChangesCore s t := answerWith_core h

theorem encGroup_core {b : Bool} {n : Nat} {out : List Symbol} (hn : 1 ≤ n ∧ n ≤ 3) (ho : out.length = 4)
    (hb : b = true → s.enc.st = .busy ∧ (n = 3 ∧ s.enc.rp + 3 ≤ s.enc.ilen ∨ s.enc.rp + n = s.enc.ilen))
    (h : encGroup b n out s = .next t) : ChangesCore s t := by
  obtain ⟨-, h₁, h₂, h₃, h₄⟩ := encGroup_next.mp h
  exact .of_change (.encGroup n out (hb h₁).1 hn ho (hb h₁).2 h₂ (ho ▸ h₃) h₄)

theorem decGroup_core {b p k : Bool} {out : List Byte} (ho : out.length ≤ 3)
    (hb : b = true → decGroupEnabled s = true) (hp : s.paderr = true → p = true) (hk : s.unkerr = true → k = true)
    (h : decGroup b out p k s = .next t) : ChangesCore s t := by
  obtain ⟨-, h₁, h₂, h₃, h₄⟩ := decGroup_next.mp h
  obtain ⟨e₁, e₂, e₃⟩ := of_decide_eq_true (hb h₁)
  exact .of_change (.decGroup out p k e₁ e₂ e₃ ho h₂ h₃ hp hk h₄)

/-- Everything an operation can do to CORE. -/
theorem exec_core (i : Instr) (h : exec i s = .next t) : ChangesCore s t := by
  cases i
  case encStart => exact Host.Outcome.next.inj (underConfig_next.mp h).2 ▸ .of_change (startUnit_change .enc s)
  case decStart => exact Host.Outcome.next.inj (underConfig_next.mp h).2 ▸ .of_change (startUnit_change .dec s)
  case enc3 => exact encGroup_core (by omega) rfl (fun e => have e := of_decide_eq_true e; ⟨e.1, .inl ⟨rfl, e.2⟩⟩) h
  case enc2 => exact encGroup_core (by omega) rfl (fun e => have e := of_decide_eq_true e; ⟨e.1, .inr e.2⟩) h
  case enc1 => exact encGroup_core (by omega) rfl (fun e => have e := of_decide_eq_true e; ⟨e.1, .inr e.2⟩) h
  case encFinish =>
    obtain ⟨-, e, h⟩ := finishing_next.mp h
    have e := of_decide_eq_true e
    exact .of_change (.encFinish e.1 e.2 h)
  case decLenfail =>
    obtain ⟨-, e, h⟩ := finishing_next.mp h
    have e := of_decide_eq_true e
    exact .of_change (.decLenfail e.1 e.2 h)
  case dec4 => exact decGroup_core (by simp) id id id h
  case dec3 => exact decGroup_core (by simp) (fun e => (Bool.and_eq_true_iff.mp e).1) id id h
  case dec2 => exact decGroup_core (by simp) (fun e => (Bool.and_eq_true_iff.mp e).1) id id h
  case decGrperr k0 k1 k2 k3 last =>
    refine decGroup_core (by simp) (fun e => (Bool.and_eq_true_iff.mp (Bool.and_eq_true_iff.mp e).1).1) ?_ ?_ h
    · intro e; simp [nextPaderr, e]
    · intro e; simp [nextUnkerr, e]
  case decFinish =>
    obtain ⟨-, e, h⟩ := finishing_next.mp h
    have e := of_decide_eq_true e
    exact .of_change (.decFinish e.1 e.2.1 e.2.2 h)
  case hWrIbuf u i e =>
    obtain ⟨-, hi, h⟩ := hostAccess_next.mp h
    have h := Host.Outcome.next.inj h
    split_ifs at h with hb
    · exact .of_change (.none h.symm)
    · exact .of_change (.writeInput u i e hb (of_decide_eq_true hi) h.symm)
  case hWrIlen u n =>
    obtain ⟨-, h⟩ := underConfig_next.mp h
    split_ifs at h with hn hb
    · exact .of_change (.none (Host.Outcome.next.inj h).symm)
    · exact .of_change (.writeLength u n hb hn (Host.Outcome.next.inj h).symm)
  case hStart u d =>
    have h := Host.Outcome.next.inj (underConfig_next.mp h).2
    split_ifs at h
    · exact h ▸ .of_change (startUnit_change u s)
    · exact .of_change (.none h.symm)
  case hRdOlen u =>
    have h := Host.Outcome.next.inj (underConfig_next.mp h).2
    split_ifs at h
    · exact h ▸ .of_same ((answering_same _ s).trans (useFree_same _))
    · exact h ▸ .of_same (answering_same _ s)
  case hRdObuf u i =>
    have h := Host.Outcome.next.inj (hostAccess_next.mp h).2.2
    split at h
    · exact h ▸ .of_same (answering_same _ s)
    · exact h ▸ .of_same ((answering_same _ s).trans (useFree_same _))
  case hRdIbuf u i => exact Host.Outcome.next.inj (hostAccess_next.mp h).2.2 ▸ .of_same (answering_same _ s)
  case pEncode x =>
    obtain ⟨-, h⟩ := underConfig_next.mp h
    split_ifs at h
    exact Host.Outcome.next.inj h ▸ .of_same (pushLines_same _ s)
  case pDecode x =>
    obtain ⟨-, h⟩ := underConfig_next.mp h
    split_ifs at h
    exact Host.Outcome.next.inj h ▸ .of_same (pushLines_same _ s)
  all_goals exact answerWith_core h

/-- Everything the run of a code can do to CORE. -/
theorem runCode_core {c : Code} (h : runCode c s = .next t) : ChangesCore s t := by
  unfold runCode at h
  split at h
  · exact exec_core _ h
  · exact .of_change (.none (ignoreWrite_next.mp h).2.2)
  · exact (readCtrl_next.mp h).2 ▸ .of_same (answering_same _ s)
  · exact absurd (underConfig_next.mp h).2 nofun

theorem unitTurn_core {u : UnitId} (h : unitTurn u s = .next t) : ChangesCore s t := by
  unfold unitTurn at h
  split_ifs at h
  · split at h
    · exact runCode_core h
    · exact absurd (underConfig_next.mp h).2 nofun
  · exact .of_change (.none (Host.Outcome.next.inj (underConfig_next.mp h).2).symm)

theorem runLine_core {l : Line} (h : runLine l s = .next t) : ChangesCore s t := by
  unfold runLine at h
  split at h
  · exact Host.Outcome.next.inj (underConfig_next.mp h).2 ▸ .of_same (lineThen_same l s)
  · split_ifs at h
    split at h
    · rename_i r hr
      obtain ⟨v, hv, hs⟩ := runCode_core hr
      exact ⟨v, hv, hs.trans (Host.Outcome.next.inj h ▸ lineThen_same l r)⟩
    · exact absurd h nofun
    · exact absurd h nofun

/-- A change of CORE does not read the host, the turns or the count of free values, so it can be replayed from any state
with the same CORE. -/
theorem ChangesCore.of_sameCore {r : State} (hr : SameCore s r) (h : ChangesCore r t) : ChangesCore s t := by
  obtain ⟨cfg, enc, dec, pe, uk, rs⟩ := hr
  obtain ⟨v, hv, hs⟩ := h
  refine ⟨{ s with enc := v.enc, dec := v.dec, paderr := v.paderr, unkerr := v.unkerr }, ?_, ?_⟩
  · obtain ⟨⟩ := s
    obtain ⟨⟩ := r
    obtain rfl := cfg
    obtain rfl := enc
    obtain rfl := dec
    obtain rfl := pe
    obtain rfl := uk
    cases hv with
    | none h => subst h; exact .none rfl
    | startEnc hb h => subst h; exact .startEnc hb rfl
    | startDec hb h => subst h; exact .startDec hb rfl
    | writeInput u i e hb hi h =>
      subst h
      cases u
      · exact .writeInput .enc i e hb hi rfl
      · exact .writeInput .dec i e hb hi rfl
    | writeLength u n hb hn h =>
      subst h
      cases u
      · exact .writeLength .enc n hb hn rfl
      · exact .writeLength .dec n hb hn rfl
    | encGroup n out hb hn ho hl hi hw h => subst h; exact .encGroup n out hb hn ho hl hi hw rfl
    | encFinish hb hl h => subst h; exact .encFinish hb hl rfl
    | decLenfail hb hl h => subst h; exact .decLenfail hb hl rfl
    | decGroup out p k hb h4 hl ho hi hw hp hk h => subst h; exact .decGroup out p k hb h4 hl ho hi hw hp hk rfl
    | decFinish hb h4 hl h =>
      subst h
      refine .decFinish hb h4 hl ?_
      simp only [decFinished]
      split_ifs <;> rfl
  · have hc : v.cfg = s.cfg ∧ v.resets = s.resets := by
      rw [← cfg, ← rs]
      cases hv with
      | writeInput u i e hb hi h => subst h; simp
      | writeLength u n hb hn h => subst h; simp
      | decFinish hb h4 hl h => subst h; simp only [decFinished]; split_ifs <;> exact ⟨rfl, rfl⟩
      | none h => subst h; exact ⟨rfl, rfl⟩
      | startEnc hb h => subst h; exact ⟨rfl, rfl⟩
      | startDec hb h => subst h; exact ⟨rfl, rfl⟩
      | encGroup n out hb hn ho hl hi hw h => subst h; exact ⟨rfl, rfl⟩
      | encFinish hb hl h => subst h; exact ⟨rfl, rfl⟩
      | decLenfail hb hl h => subst h; exact ⟨rfl, rfl⟩
      | decGroup out p k hb h4 hl ho hi hw hp hk h => subst h; exact ⟨rfl, rfl⟩
    exact ⟨hs.cfg.trans hc.1, hs.enc, hs.dec, hs.paderr, hs.unkerr, hs.resets.trans hc.2⟩

theorem hostTurn_core (h : hostTurn s = .next t) : ChangesCore s t := by
  unfold hostTurn at h
  split at h
  · exact .of_change (.none (Host.Outcome.next.inj (underConfig_next.mp h).2).symm)
  · refine ChangesCore.of_sameCore ?_ (runLine_core h)
    exact ⟨rfl, rfl, rfl, rfl, rfl, rfl⟩

/-- Everything a step can do: at a turn of reset, exactly reset; at any other turn, one change of CORE. -/
theorem step_core (h : step s = .next t) :
    (s.nextAgent = .reset → t = applyReset s.popTurn) ∧ (s.nextAgent ≠ .reset → ChangesCore s t) := by
  have hp : SameCore s s.popTurn := ⟨rfl, rfl, rfl, rfl, rfl, rfl⟩
  unfold step at h
  refine ⟨fun ha => ?_, fun ha => ?_⟩
  · rw [ha] at h
    exact (Host.Outcome.next.inj (underConfig_next.mp h).2).symm
  · rcases hn : s.nextAgent with _ | _ | _ | _ <;> rw [hn] at h
    · exact (hostTurn_core h).of_sameCore hp
    · exact (unitTurn_core (u := .enc) h).of_sameCore hp
    · exact (unitTurn_core (u := .dec) h).of_sameCore hp
    · exact absurd hn ha

end Sys2Proof.Machine
end

