-- ==== Sys2Proof/Laws/PerInstr.lean ====
section
/-! SUPPORT. Per-instruction facts about the operations as syntax. Family `WiderLengths`: an operation whose operands are in
range for one CORE is in range for every CORE with length registers at least as wide (10_state.md R14, R23). -/

namespace Sys2Proof.Laws.WiderLengths

open Sys2Proof.Machine

/-- The operands of `i` stay in range when `LEN_W` grows. -/
def Statement (i : Instr) : Prop := ∀ c d : Config, c.lenW ≤ d.lenW → i.wf c = true → i.wf d = true

theorem ilenWidth_mono {c d : Config} (h : c.lenW ≤ d.lenW) (u : UnitId) : 2 ^ ilenWidth c u ≤ 2 ^ ilenWidth d u := by
  cases u <;> exact Nat.pow_le_pow_right (by omega) (by simp only [ilenWidth]; omega)

theorem ibufSize_mono {c d : Config} (h : c.lenW ≤ d.lenW) (u : UnitId) : ibufSize c u ≤ ibufSize d u :=
  Nat.sub_le_sub_right (ilenWidth_mono h u) 1

theorem obufSize_mono {c d : Config} (h : c.lenW ≤ d.lenW) (u : UnitId) : obufSize c u ≤ obufSize d u := by
  have h₁ := ilenWidth_mono h .enc
  have h₂ := ilenWidth_mono h .dec
  cases u <;> simp only [obufSize, ilenWidth] at * <;> omega

theorem symof (v : Val) : Statement (.symof v) := fun _ _ _ hw => hw

theorem cls (c : Symbol) : Statement (.cls c) := fun _ _ _ hw => hw

theorem padsym : Statement .padsym := fun _ _ _ hw => hw

theorem encStart : Statement .encStart := fun _ _ _ hw => hw

theorem enc3 (b0 b1 b2 : Byte) : Statement (.enc3 b0 b1 b2) := fun _ _ _ hw => hw

theorem enc2 (b0 b1 : Byte) : Statement (.enc2 b0 b1) := fun _ _ _ hw => hw

theorem enc1 (b0 : Byte) : Statement (.enc1 b0) := fun _ _ _ hw => hw

theorem encFinish : Statement .encFinish := fun _ _ _ hw => hw

theorem decStart : Statement .decStart := fun _ _ _ hw => hw

theorem decLenfail : Statement .decLenfail := fun _ _ _ hw => hw

theorem dec4 (v0 v1 v2 v3 : Val) : Statement (.dec4 v0 v1 v2 v3) := fun _ _ _ hw => hw

theorem dec3 (v0 v1 v2 : Val) : Statement (.dec3 v0 v1 v2) := fun _ _ _ hw => hw

theorem dec2 (v0 v1 : Val) : Statement (.dec2 v0 v1) := fun _ _ _ hw => hw

theorem decGrperr (k0 k1 k2 k3 : SymClass) (last : Bool) : Statement (.decGrperr k0 k1 k2 k3 last) := fun _ _ _ hw => hw

theorem decFinish : Statement .decFinish := fun _ _ _ hw => hw

theorem hWrIbuf (u : UnitId) (i : Nat) (e : BitVec 8) : Statement (.hWrIbuf u i e) := fun _ _ h hw =>
  decide_eq_true (lt_of_lt_of_le (of_decide_eq_true hw) (ibufSize_mono h u))

theorem hWrIlen (u : UnitId) (n : Nat) : Statement (.hWrIlen u n) := fun _ _ h hw =>
  decide_eq_true (lt_of_lt_of_le (of_decide_eq_true hw) (ilenWidth_mono h u))

theorem hStart (u : UnitId) (d : BitVec 8) : Statement (.hStart u d) := fun _ _ _ hw => hw

theorem hRdStatus (u : UnitId) : Statement (.hRdStatus u) := fun _ _ _ hw => hw

theorem hRdOlen (u : UnitId) : Statement (.hRdOlen u) := fun _ _ _ hw => hw

theorem hRdObuf (u : UnitId) (i : Nat) : Statement (.hRdObuf u i) := fun _ _ h hw =>
  decide_eq_true (lt_of_lt_of_le (of_decide_eq_true hw) (obufSize_mono h u))

theorem hRdIlen (u : UnitId) : Statement (.hRdIlen u) := fun _ _ _ hw => hw

theorem hRdIbuf (u : UnitId) (i : Nat) : Statement (.hRdIbuf u i) := fun _ _ h hw =>
  decide_eq_true (lt_of_lt_of_le (of_decide_eq_true hw) (ibufSize_mono h u))

theorem pEncode (x : List Byte) : Statement (.pEncode x) := fun _ _ h hw =>
  decide_eq_true (lt_of_lt_of_le (of_decide_eq_true hw) (ilenWidth_mono h .enc))

theorem pDecode (x : List Symbol) : Statement (.pDecode x) := fun _ _ h hw =>
  decide_eq_true (lt_of_lt_of_le (of_decide_eq_true hw) (ilenWidth_mono h .dec))

theorem sym0 : Statement .sym0 := fun _ _ _ hw => hw

theorem sym1 : Statement .sym1 := fun _ _ _ hw => hw

theorem sym2 : Statement .sym2 := fun _ _ _ hw => hw

theorem sym3 : Statement .sym3 := fun _ _ _ hw => hw

theorem sym4 : Statement .sym4 := fun _ _ _ hw => hw

theorem sym5 : Statement .sym5 := fun _ _ _ hw => hw

theorem sym6 : Statement .sym6 := fun _ _ _ hw => hw

theorem sym7 : Statement .sym7 := fun _ _ _ hw => hw

theorem sym8 : Statement .sym8 := fun _ _ _ hw => hw

theorem sym9 : Statement .sym9 := fun _ _ _ hw => hw

theorem sym10 : Statement .sym10 := fun _ _ _ hw => hw

theorem sym11 : Statement .sym11 := fun _ _ _ hw => hw

theorem sym12 : Statement .sym12 := fun _ _ _ hw => hw

theorem sym13 : Statement .sym13 := fun _ _ _ hw => hw

theorem sym14 : Statement .sym14 := fun _ _ _ hw => hw

theorem sym15 : Statement .sym15 := fun _ _ _ hw => hw

theorem sym16 : Statement .sym16 := fun _ _ _ hw => hw

theorem sym17 : Statement .sym17 := fun _ _ _ hw => hw

theorem sym18 : Statement .sym18 := fun _ _ _ hw => hw

theorem sym19 : Statement .sym19 := fun _ _ _ hw => hw

theorem sym20 : Statement .sym20 := fun _ _ _ hw => hw

theorem sym21 : Statement .sym21 := fun _ _ _ hw => hw

theorem sym22 : Statement .sym22 := fun _ _ _ hw => hw

theorem sym23 : Statement .sym23 := fun _ _ _ hw => hw

theorem sym24 : Statement .sym24 := fun _ _ _ hw => hw

theorem sym25 : Statement .sym25 := fun _ _ _ hw => hw

theorem sym26 : Statement .sym26 := fun _ _ _ hw => hw

theorem sym27 : Statement .sym27 := fun _ _ _ hw => hw

theorem sym28 : Statement .sym28 := fun _ _ _ hw => hw

theorem sym29 : Statement .sym29 := fun _ _ _ hw => hw

theorem sym30 : Statement .sym30 := fun _ _ _ hw => hw

theorem sym31 : Statement .sym31 := fun _ _ _ hw => hw

theorem sym32 : Statement .sym32 := fun _ _ _ hw => hw

theorem sym33 : Statement .sym33 := fun _ _ _ hw => hw

theorem sym34 : Statement .sym34 := fun _ _ _ hw => hw

theorem sym35 : Statement .sym35 := fun _ _ _ hw => hw

theorem sym36 : Statement .sym36 := fun _ _ _ hw => hw

theorem sym37 : Statement .sym37 := fun _ _ _ hw => hw

theorem sym38 : Statement .sym38 := fun _ _ _ hw => hw

theorem sym39 : Statement .sym39 := fun _ _ _ hw => hw

theorem sym40 : Statement .sym40 := fun _ _ _ hw => hw

theorem sym41 : Statement .sym41 := fun _ _ _ hw => hw

theorem sym42 : Statement .sym42 := fun _ _ _ hw => hw

theorem sym43 : Statement .sym43 := fun _ _ _ hw => hw

theorem sym44 : Statement .sym44 := fun _ _ _ hw => hw

theorem sym45 : Statement .sym45 := fun _ _ _ hw => hw

theorem sym46 : Statement .sym46 := fun _ _ _ hw => hw

theorem sym47 : Statement .sym47 := fun _ _ _ hw => hw

theorem sym48 : Statement .sym48 := fun _ _ _ hw => hw

theorem sym49 : Statement .sym49 := fun _ _ _ hw => hw

theorem sym50 : Statement .sym50 := fun _ _ _ hw => hw

theorem sym51 : Statement .sym51 := fun _ _ _ hw => hw

theorem sym52 : Statement .sym52 := fun _ _ _ hw => hw

theorem sym53 : Statement .sym53 := fun _ _ _ hw => hw

theorem sym54 : Statement .sym54 := fun _ _ _ hw => hw

theorem sym55 : Statement .sym55 := fun _ _ _ hw => hw

theorem sym56 : Statement .sym56 := fun _ _ _ hw => hw

theorem sym57 : Statement .sym57 := fun _ _ _ hw => hw

theorem sym58 : Statement .sym58 := fun _ _ _ hw => hw

theorem sym59 : Statement .sym59 := fun _ _ _ hw => hw

theorem sym60 : Statement .sym60 := fun _ _ _ hw => hw

theorem sym61 : Statement .sym61 := fun _ _ _ hw => hw

theorem sym62 : Statement .sym62 := fun _ _ _ hw => hw

theorem sym63 : Statement .sym63 := fun _ _ _ hw => hw

theorem symPad : Statement .symPad := fun _ _ _ hw => hw

theorem symUnk (c : Symbol) : Statement (.symUnk c) := fun _ _ _ hw => hw

end Sys2Proof.Laws.WiderLengths
end

