-- ==== Sys2Proof/Tests/Slice0.lean ====
section
/-! SUPPORT. The model's own tests: words and vectors of spec/ (the ids TA, TF, TE, TD, TH, TP are those of
95_test_vectors.md), the refusals of `Instr.wf`, and for each statement with hypotheses a state that meets them. -/

namespace Sys2Proof.Tests

set_option Elab.async false

open Sys2Proof.Machine

/-! ## Helpers -/

/-- The classic alphabet with `LEN_W` = 4 (TZ2). -/
def small : Config := { classicConfig with lenW := 4 }

/-- The classic alphabet with `LEN_W` = 2, the least (TZ1). -/
def least : Config := { classicConfig with lenW := 2 }

/-- ENC BUSY on input `x`, with the two pointers as given. -/
def encAt (x : List Byte) (rp wp : Nat) : State :=
  { State.resetWith small with enc := ⟨.busy, none, x.length, 0, rp, wp, Memory.writeAll [] 0 x, []⟩ }

/-- DEC BUSY on input `x`, with the two pointers as given. -/
def decAt (x : List Symbol) (rp wp : Nat) : State :=
  { State.resetWith small with dec := ⟨.busy, none, x.length, 0, rp, wp, Memory.writeAll [] 0 x, []⟩ }

/-- ENC DONE with input `x` and output `out`. -/
def encDone (x : List Byte) (out : List Symbol) : State :=
  { State.resetWith small with
    enc := ⟨.done, none, x.length, out.length, x.length, out.length, Memory.writeAll [] 0 x, Memory.writeAll [] 0 out⟩ }

/-- DEC DONE with input `x`, the error `e` and output `out`. -/
def decDone (x : List Symbol) (e : Option DecErr) (out : List Byte) : State :=
  { State.resetWith small with
    dec := ⟨.done, e, x.length, out.length, x.length, out.length, Memory.writeAll [] 0 x, Memory.writeAll [] 0 out⟩ }

/-- A part of the next state, if there is one. -/
def partOf {α : Type} (f : State → α) : Res → Option α
  | .next t => some (f t)
  | _ => none

/-- The reason of a fault, if it is one. -/
def faultOf : Res → Option Fault
  | .fault r => some r
  | _ => none

/-- The reason of a refusal, if it is one. -/
def refusalOf : Res → Option Refusal
  | .refused r => some r
  | _ => none

/-- The operation that a code decodes to, if it is one. -/
def instrOf (c : Code) : Option Instr :=
  match decode c with
  | .ok (.instr i) => some i
  | _ => none

/-- The error that a code is rejected with, if it is. -/
def errorOf (c : Code) : Option CodeError :=
  match decode c with
  | .error e => some e
  | _ => none

/-- The last answer. -/
def answerOf (s : State) : Option Answer := s.host.answer

/-- An outcome with a part to take is a next state. -/
theorem answersNext {r : Res} (h : partOf (fun _ => ()) r = some ()) : ∃ t, r = .next t := by
  cases r with
  | next t => exact ⟨t, rfl⟩
  | fault r => exact absurd h nofun
  | refused r => exact absurd h nofun

/-! ## WellFormed: one ill-formed operation for each check, and its well-formed neighbour -/

theorem test_wf_hWrIbuf :
    (Instr.hWrIbuf .enc 3 0#8).wf least = false ∧ (Instr.hWrIbuf .enc 2 0#8).wf least = true ∧
      (Instr.hWrIbuf .dec 7 0#8).wf least = false ∧ (Instr.hWrIbuf .dec 6 0#8).wf least = true := by decide

theorem test_wf_hWrIlen :
    (Instr.hWrIlen .enc 4).wf least = false ∧ (Instr.hWrIlen .enc 3).wf least = true ∧
      (Instr.hWrIlen .dec 8).wf least = false ∧ (Instr.hWrIlen .dec 7).wf least = true := by decide

theorem test_wf_hRdObuf :
    (Instr.hRdObuf .enc 4).wf least = false ∧ (Instr.hRdObuf .enc 3).wf least = true ∧
      (Instr.hRdObuf .dec 3).wf least = false ∧ (Instr.hRdObuf .dec 2).wf least = true := by decide

theorem test_wf_hRdIbuf :
    (Instr.hRdIbuf .enc 3).wf least = false ∧ (Instr.hRdIbuf .enc 2).wf least = true ∧
      (Instr.hRdIbuf .dec 7).wf least = false ∧ (Instr.hRdIbuf .dec 6).wf least = true := by decide

theorem test_wf_pseudo :
    (Instr.pEncode (List.replicate 4 0#8)).wf least = false ∧ (Instr.pEncode (List.replicate 3 0#8)).wf least = true ∧
      (Instr.pDecode (List.replicate 8 0#8)).wf least = false ∧ (Instr.pDecode (List.replicate 7 0#8)).wf least = true := by
  decide

theorem test_wf_decGrperr :
    (Instr.decGrperr (.val 0#6) (.val 0#6) (.val 0#6) .padc true).wf least = false ∧
      (Instr.decGrperr (.val 0#6) (.val 0#6) (.val 0#6) .padc false).wf least = true := by decide

theorem test_wf_symUnk :
    (Instr.symUnk 0x41#8).wf least = false ∧ (Instr.symUnk 0x3D#8).wf least = false ∧
      (Instr.symUnk 0x40#8).wf least = true := by decide

/-! ## Decoding: a word or tuple for every constructor, written out from the formats and rows of the spec -/

/-- TF1, TF2, TF3, TF7 (R61, R62, R63): the operands are the bytes of the input view. -/
theorem test_decode_encode_groups :
    instrOf (.g24 0b011001100110111101101111#24) = some (.enc3 0x66#8 0x6F#8 0x6F#8) ∧
      instrOf (.g24 0b111110111111111110111111#24) = some (.enc3 0xFB#8 0xFF#8 0xBF#8) ∧
      instrOf (.g18 0b011001100110111100#18) = some (.enc2 0x66#8 0x6F#8) ∧
      instrOf (.g12 0b011001100000#12) = some (.enc1 0x66#8) := by decide

/-- TF4, TF5, TF6 (R64): the operands are the values of the input view. -/
theorem test_decode_decode_groups :
    instrOf (.q24 0b011001100110111101101111#24) = some (.dec4 25#6 38#6 61#6 47#6) ∧
      instrOf (.q18 0b011001100110111101#18) = some (.dec3 25#6 38#6 61#6) ∧
      instrOf (.q12 0b011001100001#12) = some (.dec2 25#6 33#6) := by decide

/-- TF8, TF9, TF10: the bits that cross a field boundary. -/
theorem test_group_fields :
    [encV0 0x00#8, encV1 0x00#8 0x00#8, encV2 0x00#8 0x40#8, encV3 0x40#8] = [0#6, 0#6, 1#6, 0#6] ∧
      [encV0 0x00#8, encV1 0x00#8 0x10#8, encV2 0x10#8 0x00#8, encV3 0x00#8] = [0#6, 1#6, 0#6, 0#6] ∧
      [encV0 0x04#8, encV1 0x04#8 0x00#8, encV2 0x00#8 0x00#8, encV3 0x00#8] = [1#6, 0#6, 0#6, 0#6] := by decide

/-- R62, R63: the constant bits of G18 and G12 are 0; a word in which they are not is rejected. -/
theorem test_decode_constant_bits :
    errorOf (.g18 0b011001100110111101#18) = some .g18TailNotZero ∧
      errorOf (.g12 0b011001100001#12) = some .g12TailNotZero := by decide

/-- Rows ENC.START, DEC.START, H.START (`xxxxxxx1`), TF12; R20. -/
theorem test_decode_ctrl :
    instrOf (.ctrl8 .enc 0b00000001#8) = some .encStart ∧ instrOf (.ctrl8 .enc 0b11111111#8) = some .encStart ∧
      instrOf (.ctrl8 .dec 0b00000001#8) = some .decStart ∧ instrOf (.ctrl8 .dec 0b11111110#8) = none ∧
      instrOf (.write .dec (.reg 0) 1) = some (.hStart .dec 0b00000001#8) := by decide

/-- R22, R150: the tuples of the seven other host accesses. -/
theorem test_decode_host :
    instrOf (.write .enc (.ibuf 2) 0x6F) = some (.hWrIbuf .enc 2 0x6F#8) ∧
      instrOf (.write .dec (.reg 2) 4) = some (.hWrIlen .dec 4) ∧
      instrOf (.read .enc (.reg 1)) = some (.hRdStatus .enc) ∧
      instrOf (.read .dec (.reg 2)) = some (.hRdIlen .dec) ∧
      instrOf (.read .enc (.reg 3)) = some (.hRdOlen .enc) ∧
      instrOf (.read .dec (.ibuf 1)) = some (.hRdIbuf .dec 1) ∧
      instrOf (.read .enc (.obuf 3)) = some (.hRdObuf .enc 3) := by decide

/-- R20, R21, R22: the accesses without a row, and those that do not exist. -/
theorem test_decode_other_accesses :
    decode (.write .enc (.reg 1) 7) = .ok (.ignoredWrite .enc (.reg 1)) ∧
      decode (.write .enc (.reg 3) 7) = .ok (.ignoredWrite .enc (.reg 3)) ∧
      decode (.write .dec (.obuf 0) 7) = .ok (.ignoredWrite .dec (.obuf 0)) ∧
      decode (.read .dec (.reg 0)) = .ok (.ctrlRead .dec) ∧
      errorOf (.read .enc (.reg 4)) = some .noSuchRegister ∧
      errorOf (.write .enc (.ibuf 0) 256) = some .dataTooWide := ⟨rfl, rfl, rfl, rfl, rfl, rfl⟩

/-- The operations without a word: the selections by state (R95, R116, R121), a row of R70, the lookups, the
pseudo-operations. -/
theorem test_decode_without_words :
    instrOf (.finish .enc) = some .encFinish ∧ instrOf (.finish .dec) = some .decFinish ∧
      instrOf .lenfail = some .decLenfail ∧
      instrOf (.classes .padc (.val 0#6) (.val 0#6) (.val 0#6) true) =
        some (.decGrperr .padc (.val 0#6) (.val 0#6) (.val 0#6) true) ∧
      errorOf (.classes (.val 0#6) (.val 0#6) .padc .padc true) = some .patternIsNoError ∧
      instrOf (.lookupSymof 63#6) = some (.symof 63#6) ∧ instrOf (.lookupClass 0x2F#8) = some (.cls 0x2F#8) ∧
      instrOf .lookupPad = some .padsym ∧ instrOf (.scriptEncode [0x66#8]) = some (.pEncode [0x66#8]) ∧
      instrOf (.scriptDecode [0x5A#8]) = some (.pDecode [0x5A#8]) := by decide

/-- The `encoding` column of opcode_table.json for SYM.0 to SYM.63 and SYM.PAD. -/
def symWords : List (BitVec 8 × Instr) :=
  ([(0b01000001#8, .sym0), (0b01000010#8, .sym1), (0b01000011#8, .sym2), (0b01000100#8, .sym3), (0b01000101#8, .sym4)] : List (BitVec 8 × Instr))
    ++ ([(0b01000110#8, .sym5), (0b01000111#8, .sym6), (0b01001000#8, .sym7), (0b01001001#8, .sym8), (0b01001010#8, .sym9)] : List (BitVec 8 × Instr))
    ++ ([(0b01001011#8, .sym10), (0b01001100#8, .sym11), (0b01001101#8, .sym12), (0b01001110#8, .sym13), (0b01001111#8, .sym14)] : List (BitVec 8 × Instr))
    ++ ([(0b01010000#8, .sym15), (0b01010001#8, .sym16), (0b01010010#8, .sym17), (0b01010011#8, .sym18), (0b01010100#8, .sym19)] : List (BitVec 8 × Instr))
    ++ ([(0b01010101#8, .sym20), (0b01010110#8, .sym21), (0b01010111#8, .sym22), (0b01011000#8, .sym23), (0b01011001#8, .sym24)] : List (BitVec 8 × Instr))
    ++ ([(0b01011010#8, .sym25), (0b01100001#8, .sym26), (0b01100010#8, .sym27), (0b01100011#8, .sym28), (0b01100100#8, .sym29)] : List (BitVec 8 × Instr))
    ++ ([(0b01100101#8, .sym30), (0b01100110#8, .sym31), (0b01100111#8, .sym32), (0b01101000#8, .sym33), (0b01101001#8, .sym34)] : List (BitVec 8 × Instr))
    ++ ([(0b01101010#8, .sym35), (0b01101011#8, .sym36), (0b01101100#8, .sym37), (0b01101101#8, .sym38), (0b01101110#8, .sym39)] : List (BitVec 8 × Instr))
    ++ ([(0b01101111#8, .sym40), (0b01110000#8, .sym41), (0b01110001#8, .sym42), (0b01110010#8, .sym43), (0b01110011#8, .sym44)] : List (BitVec 8 × Instr))
    ++ ([(0b01110100#8, .sym45), (0b01110101#8, .sym46), (0b01110110#8, .sym47), (0b01110111#8, .sym48), (0b01111000#8, .sym49)] : List (BitVec 8 × Instr))
    ++ ([(0b01111001#8, .sym50), (0b01111010#8, .sym51), (0b00110000#8, .sym52), (0b00110001#8, .sym53), (0b00110010#8, .sym54)] : List (BitVec 8 × Instr))
    ++ ([(0b00110011#8, .sym55), (0b00110100#8, .sym56), (0b00110101#8, .sym57), (0b00110110#8, .sym58), (0b00110111#8, .sym59)] : List (BitVec 8 × Instr))
    ++ ([(0b00111000#8, .sym60), (0b00111001#8, .sym61), (0b00101011#8, .sym62), (0b00101111#8, .sym63), (0b00111101#8, .symPad)] : List (BitVec 8 × Instr))

theorem test_decode_symbol_rows : symWords.all (fun r => instrOf (.sym8 r.1) == some r.2) = true := by decide +kernel

/-- The codes at the ends of the ranges of row SYM.UNK (TA18). -/
theorem test_decode_unknown_symbols :
    ([0x00#8, 0x2A#8, 0x2C#8, 0x2E#8, 0x3A#8, 0x3C#8, 0x3E#8, 0x40#8, 0x5B#8, 0x60#8, 0x7B#8, 0xFF#8] : List (BitVec 8)).all
      (fun c => instrOf (.sym8 c) == some (.symUnk c)) = true := by decide +kernel

/-- The bare table words of log entry 9. -/
theorem test_table_words :
    decodeTableWord 8 0x41 = some .sym0 ∧ decodeTableWord 8 0x3D = some .symPad ∧ decodeTableWord 8 0x01 = some .encStart ∧
      decodeTableWord 8 0x00 = some (.hRdStatus .enc) ∧ decodeTableWord 8 0xFE = some (.symUnk 0xFE#8) ∧
      decodeTableWord 24 0x666F6F = some (.enc3 0x66#8 0x6F#8 0x6F#8) ∧
      decodeTableWord 18 0b011001100110111100 = some (.enc2 0x66#8 0x6F#8) ∧
      decodeTableWord 12 0b011001100001 = some (.dec2 25#6 33#6) := by decide +kernel

/-! ## The table of R70: 81 patterns, not last and last -/

def cV : SymClass := .val 0#6
def cP : SymClass := .padc
def cU : SymClass := .unk

/-- DEC4, DEC3, DEC2, and GRPERR with the flags it sets. -/
def g4 : GroupStep × Bool × Bool := (.dec4, false, false)
def g3 : GroupStep × Bool × Bool := (.dec3, false, false)
def g2 : GroupStep × Bool × Bool := (.dec2, false, false)
def gP : GroupStep × Bool × Bool := (.grperr, true, false)
def gU : GroupStep × Bool × Bool := (.grperr, false, true)
def gPU : GroupStep × Bool × Bool := (.grperr, true, true)

/-- One entry of the table: four classes, the entry for a group that is not last, the entry for the last. -/
abbrev PatternRow := (SymClass × SymClass × SymClass × SymClass) × (GroupStep × Bool × Bool) × (GroupStep × Bool × Bool)

def patterns1 : List PatternRow :=
  [((cV, cV, cV, cV), g4, g4), ((cV, cV, cV, cP), gP, g3), ((cV, cV, cV, cU), gU, gU),
    ((cV, cV, cP, cV), gP, gP), ((cV, cV, cP, cP), gP, g2), ((cV, cV, cP, cU), gPU, gPU),
    ((cV, cV, cU, cV), gU, gU), ((cV, cV, cU, cP), gPU, gU), ((cV, cV, cU, cU), gU, gU)]

def patterns2 : List PatternRow :=
  [((cV, cP, cV, cV), gP, gP), ((cV, cP, cV, cP), gP, gP), ((cV, cP, cV, cU), gPU, gPU),
    ((cV, cP, cP, cV), gP, gP), ((cV, cP, cP, cP), gP, gP), ((cV, cP, cP, cU), gPU, gPU),
    ((cV, cP, cU, cV), gPU, gPU), ((cV, cP, cU, cP), gPU, gPU), ((cV, cP, cU, cU), gPU, gPU)]

def patterns3 : List PatternRow :=
  [((cV, cU, cV, cV), gU, gU), ((cV, cU, cV, cP), gPU, gU), ((cV, cU, cV, cU), gU, gU),
    ((cV, cU, cP, cV), gPU, gPU), ((cV, cU, cP, cP), gPU, gU), ((cV, cU, cP, cU), gPU, gPU),
    ((cV, cU, cU, cV), gU, gU), ((cV, cU, cU, cP), gPU, gU), ((cV, cU, cU, cU), gU, gU)]

def patterns4 : List PatternRow :=
  [((cP, cV, cV, cV), gP, gP), ((cP, cV, cV, cP), gP, gP), ((cP, cV, cV, cU), gPU, gPU),
    ((cP, cV, cP, cV), gP, gP), ((cP, cV, cP, cP), gP, gP), ((cP, cV, cP, cU), gPU, gPU),
    ((cP, cV, cU, cV), gPU, gPU), ((cP, cV, cU, cP), gPU, gPU), ((cP, cV, cU, cU), gPU, gPU)]

def patterns5 : List PatternRow :=
  [((cP, cP, cV, cV), gP, gP), ((cP, cP, cV, cP), gP, gP), ((cP, cP, cV, cU), gPU, gPU),
    ((cP, cP, cP, cV), gP, gP), ((cP, cP, cP, cP), gP, gP), ((cP, cP, cP, cU), gPU, gPU),
    ((cP, cP, cU, cV), gPU, gPU), ((cP, cP, cU, cP), gPU, gPU), ((cP, cP, cU, cU), gPU, gPU)]

def patterns6 : List PatternRow :=
  [((cP, cU, cV, cV), gPU, gPU), ((cP, cU, cV, cP), gPU, gPU), ((cP, cU, cV, cU), gPU, gPU),
    ((cP, cU, cP, cV), gPU, gPU), ((cP, cU, cP, cP), gPU, gPU), ((cP, cU, cP, cU), gPU, gPU),
    ((cP, cU, cU, cV), gPU, gPU), ((cP, cU, cU, cP), gPU, gPU), ((cP, cU, cU, cU), gPU, gPU)]

def patterns7 : List PatternRow :=
  [((cU, cV, cV, cV), gU, gU), ((cU, cV, cV, cP), gPU, gU), ((cU, cV, cV, cU), gU, gU),
    ((cU, cV, cP, cV), gPU, gPU), ((cU, cV, cP, cP), gPU, gU), ((cU, cV, cP, cU), gPU, gPU),
    ((cU, cV, cU, cV), gU, gU), ((cU, cV, cU, cP), gPU, gU), ((cU, cV, cU, cU), gU, gU)]

def patterns8 : List PatternRow :=
  [((cU, cP, cV, cV), gPU, gPU), ((cU, cP, cV, cP), gPU, gPU), ((cU, cP, cV, cU), gPU, gPU),
    ((cU, cP, cP, cV), gPU, gPU), ((cU, cP, cP, cP), gPU, gPU), ((cU, cP, cP, cU), gPU, gPU),
    ((cU, cP, cU, cV), gPU, gPU), ((cU, cP, cU, cP), gPU, gPU), ((cU, cP, cU, cU), gPU, gPU)]

def patterns9 : List PatternRow :=
  [((cU, cU, cV, cV), gU, gU), ((cU, cU, cV, cP), gPU, gU), ((cU, cU, cV, cU), gU, gU),
    ((cU, cU, cP, cV), gPU, gPU), ((cU, cU, cP, cP), gPU, gU), ((cU, cU, cP, cU), gPU, gPU),
    ((cU, cU, cU, cV), gU, gU), ((cU, cU, cU, cP), gPU, gU), ((cU, cU, cU, cU), gU, gU)]

/-- What the model does with a pattern. -/
def outcomeOf (k : SymClass × SymClass × SymClass × SymClass) (last : Bool) : GroupStep × Bool × Bool :=
  (selectGroup k.1 k.2.1 k.2.2.1 k.2.2.2 last, nextPaderr false k.1 k.2.1 k.2.2.1 k.2.2.2 last,
    nextUnkerr false k.1 k.2.1 k.2.2.1 k.2.2.2)

theorem test_pattern_table :
    (patterns1 ++ patterns2 ++ patterns3 ++ patterns4 ++ patterns5 ++ patterns6 ++ patterns7 ++ patterns8 ++ patterns9).all (fun r => outcomeOf r.1 false == r.2.1 && outcomeOf r.1 true == r.2.2) = true := by decide +kernel

/-- The table lists every pattern once. -/
theorem test_pattern_table_complete :
    ((patterns1 ++ patterns2 ++ patterns3 ++ patterns4 ++ patterns5 ++ patterns6 ++ patterns7 ++ patterns8 ++ patterns9).map (·.1)).Nodup ∧
      (patterns1 ++ patterns2 ++ patterns3 ++ patterns4 ++ patterns5 ++ patterns6 ++ patterns7 ++ patterns8 ++ patterns9).length = 81 := by decide +kernel

/-! ## Meanings: vectors of 95_test_vectors.md, one operation or step each -/

theorem small_wf : small.WF := by decide +kernel

/-- TA8, TA9, TA12, TA15. -/
theorem test_lookups :
    symOf small 63#6 = 0x2F#8 ∧ padSym small = 0x3D#8 ∧ classOf small 0x3D#8 = .padc ∧ classOf small 0x5F#8 = .unk ∧
      classOf small 0x7A#8 = .val 51#6 := by decide +kernel

theorem test_symof : partOf answerOf (exec (.symof 25#6) (State.resetWith small)) = some (some (.symbol 0x5A#8)) := by
  decide +kernel

theorem test_cls : partOf answerOf (exec (.cls 0x2B#8) (State.resetWith small)) = some (some (.cls (.val 62#6))) := by
  decide +kernel

theorem test_padsym : partOf answerOf (exec .padsym (State.resetWith small)) = some (some (.symbol 0x3D#8)) := by
  decide +kernel

/-- R85: rows SYM.25, SYM.63, SYM.PAD and SYM.UNK ("-", TA14). -/
theorem test_symbol_rows :
    partOf answerOf (exec .sym25 (State.resetWith small)) = some (some (.cls (.val 25#6))) ∧
      partOf answerOf (exec .sym63 (State.resetWith small)) = some (some (.cls (.val 63#6))) ∧
      partOf answerOf (exec .symPad (State.resetWith small)) = some (some (.cls .padc)) ∧
      partOf answerOf (exec (.symUnk 0x2D#8) (State.resetWith small)) = some (some (.cls .unk)) := by decide +kernel

/-- R91: START from DONE; TH7's case is in `test_hWrIlen`. -/
theorem test_encStart :
    partOf (fun t => (t.enc.st, t.enc.rp, t.enc.wp, t.enc.olen, t.enc.ilen)) (exec .encStart (encDone [0x66#8] [0x5A#8])) =
      some (.busy, 0, 0, 0, 1) := by decide +kernel

/-- TE22: `fb ff bf` gives "+/+/". -/
theorem test_enc3 :
    partOf (fun t => (t.enc.obuf, t.enc.rp, t.enc.wp)) (step (encAt [0xFB#8, 0xFF#8, 0xBF#8] 0 0)) =
      some ([(0, 0x2B#8), (1, 0x2F#8), (2, 0x2B#8), (3, 0x2F#8)], 3, 4) := by decide +kernel

/-- TE28, second group: `03 d9 7e` gives "A9l+" at index 4. -/
theorem test_enc3_second_group :
    partOf (fun t => (t.enc.obuf, t.enc.rp, t.enc.wp))
        (step (encAt [0x14#8, 0xFB#8, 0x9C#8, 0x03#8, 0xD9#8, 0x7E#8] 3 4)) =
      some ([(4, 0x41#8), (5, 0x39#8), (6, 0x6C#8), (7, 0x2B#8)], 6, 8) := by decide +kernel

/-- TE19: `0f f0` gives "D/A=". -/
theorem test_enc2 :
    partOf (fun t => (t.enc.obuf, t.enc.rp, t.enc.wp)) (step (encAt [0x0F#8, 0xF0#8] 0 0)) =
      some ([(0, 0x44#8), (1, 0x2F#8), (2, 0x41#8), (3, 0x3D#8)], 2, 4) := by decide +kernel

/-- TE9: `ff` gives "/w==". -/
theorem test_enc1 :
    partOf (fun t => (t.enc.obuf, t.enc.rp, t.enc.wp)) (step (encAt [0xFF#8] 0 0)) =
      some ([(0, 0x2F#8), (1, 0x77#8), (2, 0x3D#8), (3, 0x3D#8)], 1, 4) := by decide +kernel

/-- TP1: ENC.FINISH after "foo". -/
theorem test_encFinish :
    partOf (fun t => (t.enc.st, t.enc.err, t.enc.olen)) (step (encAt [0x66#8, 0x6F#8, 0x6F#8] 3 4)) =
      some (.done, none, 4) := by decide +kernel

/-- TH14, TP3 line 10: START clears the error and the flags. -/
theorem test_decStart :
    partOf (fun t => (t.dec.st, t.dec.err, t.paderr, t.unkerr))
        (exec .decStart { decDone [0x3F#8, 0x41#8, 0x41#8, 0x41#8] (some .unknownSymbol) [] with unkerr := true }) =
      some (.busy, none, false, false) := by decide +kernel

/-- TD21: "Zm9". -/
theorem test_decLenfail :
    partOf (fun t => (t.dec.st, t.dec.err, t.dec.olen, t.dec.rp)) (step (decAt [0x5A#8, 0x6D#8, 0x39#8] 0 0)) =
      some (.done, some .malformedLength, 0, 0) := by decide +kernel

/-- TD17: "Zm8/". -/
theorem test_dec4 :
    partOf (fun t => (t.dec.obuf, t.dec.rp, t.dec.wp)) (step (decAt [0x5A#8, 0x6D#8, 0x38#8, 0x2F#8] 0 0)) =
      some ([(0, 0x66#8), (1, 0x6F#8), (2, 0x3F#8)], 4, 3) := by decide +kernel

/-- TD16: "Zm9=" (the dropped bits are 01). -/
theorem test_dec3 :
    partOf (fun t => (t.dec.obuf, t.dec.rp, t.dec.wp)) (step (decAt [0x5A#8, 0x6D#8, 0x39#8, 0x3D#8] 0 0)) =
      some ([(0, 0x66#8), (1, 0x6F#8)], 4, 2) := by decide +kernel

/-- TD18: "Z/==". -/
theorem test_dec2 :
    partOf (fun t => (t.dec.obuf, t.dec.rp, t.dec.wp)) (step (decAt [0x5A#8, 0x2F#8, 0x3D#8, 0x3D#8] 0 0)) =
      some ([(0, 0x67#8)], 4, 1) := by decide +kernel

/-- TD40, first group: "AAA=" that is not last. -/
theorem test_decGrperr_pad :
    partOf (fun t => (t.paderr, t.unkerr, t.dec.obuf, t.dec.rp, t.dec.wp))
        (step (decAt [0x41#8, 0x41#8, 0x41#8, 0x3D#8, 0x41#8, 0x41#8, 0x41#8, 0x41#8] 0 0)) =
      some (true, false, [], 4, 0) := by decide +kernel

/-- TD52: "AA?=". -/
theorem test_decGrperr_unknown :
    partOf (fun t => (t.paderr, t.unkerr, t.dec.rp, t.dec.wp)) (step (decAt [0x41#8, 0x41#8, 0x3F#8, 0x3D#8] 0 0)) =
      some (false, true, 4, 0) := by decide +kernel

/-- TP4: both flags set, MisplacedPadding is reported. -/
theorem test_decFinish_error :
    partOf (fun t => (t.dec.st, t.dec.err, t.dec.olen))
        (exec .decFinish { decAt [0x3F#8, 0x3D#8, 0x41#8, 0x41#8] 4 0 with paderr := true, unkerr := true }) =
      some (.done, some .misplacedPadding, 0) := by decide +kernel

/-- TP2: DEC.FINISH after "Zg==". -/
theorem test_decFinish_ok :
    partOf (fun t => (t.dec.st, t.dec.err, t.dec.olen)) (step (decAt [0x5A#8, 0x67#8, 0x3D#8, 0x3D#8] 4 1)) =
      some (.done, none, 1) := by decide +kernel

/-- TP1 line 1, and TH8: ignored while BUSY. -/
theorem test_hWrIbuf :
    partOf (fun t => t.enc.ibuf) (exec (.hWrIbuf .enc 0 0x66#8) (State.resetWith small)) = some [(0, 0x66#8)] ∧
      partOf (fun t => t.enc.ibuf) (exec (.hWrIbuf .enc 0 0x00#8) (encAt [0x66#8] 0 0)) = some [(0, 0x66#8)] := by
  decide +kernel

/-- TH7: ignored while BUSY; TP1 line 4. -/
theorem test_hWrIlen :
    partOf (fun t => t.enc.ilen) (exec (.hWrIlen .enc 1) (encAt [0x66#8, 0x6F#8, 0x6F#8] 0 0)) = some 3 ∧
      partOf (fun t => t.enc.ilen) (exec (.hWrIlen .enc 3) (State.resetWith small)) = some 3 := by decide +kernel

/-- TH4, TH5. -/
theorem test_hStart :
    partOf (fun t => t.enc.st) (exec (.hStart .enc 0xFE#8) (State.resetWith small)) = some .idle ∧
      partOf (fun t => t.enc.st) (exec (.hStart .enc 0xFF#8) (State.resetWith small)) = some .busy := by decide +kernel

/-- TH13, TF11, TH10. -/
theorem test_hRdStatus :
    partOf answerOf (exec (.hRdStatus .dec) (decDone [0x3F#8] (some .unknownSymbol) [])) = some (some (.reg8 0x0E#8)) ∧
      statusByte (decDone [] (some .misplacedPadding) []).dec = 0x0A#8 ∧
      statusByte (encAt [] 0 0).enc = 0x01#8 := by decide +kernel

/-- TP1 line 7; TH2. -/
theorem test_hRdOlen :
    partOf answerOf (exec (.hRdOlen .enc) (encDone [0x66#8] [0x5A#8, 0x67#8, 0x3D#8, 0x3D#8])) = some (some (.len 4)) := by
  decide +kernel

/-- TP2 line 7. -/
theorem test_hRdObuf :
    partOf answerOf (exec (.hRdObuf .enc 1) (encDone [0x66#8] [0x5A#8, 0x67#8, 0x3D#8, 0x3D#8])) =
      some (some (.elem 0x67#8)) := by decide +kernel

/-- TH12. -/
theorem test_hRdIlen :
    partOf answerOf (exec (.hRdIlen .enc) (encAt [0x66#8, 0x6F#8] 0 0)) = some (some (.len 2)) := by decide +kernel

/-- TH12. -/
theorem test_hRdIbuf :
    partOf answerOf (exec (.hRdIbuf .enc 1) (encAt [0x66#8, 0x6F#8] 0 0)) = some (some (.elem 0x6F#8)) := by
  decide +kernel

/-- TH16, TH17. -/
theorem test_wrong_direction :
    partOf answerOf (runCode (.read .enc (.reg 0)) (State.resetWith small)) = some (some (.reg8 0#8)) ∧
      partOf (fun t => decide (t = encDone [0x66#8] [0x5A#8]))
        (runCode (.write .enc (.obuf 0) 0xFF) (encDone [0x66#8] [0x5A#8])) = some true := by decide +kernel

/-- R151: the lines of `ENCODE` on one byte. -/
theorem test_pEncode :
    partOf (fun t => t.host.script) (exec (.pEncode [0x66#8]) (State.resetWith small)) =
      some [.op (.write .enc (.ibuf 0) 0x66), .op (.write .enc (.reg 2) 1), .op (.write .enc (.reg 0) 1), .poll .enc,
        .gather .enc] := by decide +kernel

/-- R152: the lines of `DECODE` on two symbols. -/
theorem test_pDecode :
    partOf (fun t => t.host.script) (exec (.pDecode [0x41#8, 0x42#8]) (State.resetWith small)) =
      some [.op (.write .dec (.ibuf 0) 0x41), .op (.write .dec (.ibuf 1) 0x42), .op (.write .dec (.reg 2) 2),
        .op (.write .dec (.reg 0) 1), .poll .dec, .judge] := by decide +kernel

/-- TH22, R25. -/
theorem test_reset :
    partOf (fun t => (t.enc, t.dec.st, t.cfg.lenW))
        (step { encAt [0x66#8] 1 4 with turns := [.reset] }) = some (CodecUnit.reset, .idle, 4) := by decide +kernel

/-- POLL repeats while the value read is not DONE (R150). -/
theorem test_poll :
    partOf (fun t => t.host.script)
        (step { encAt [0x66#8] 0 0 with host := ⟨[.poll .enc], none, []⟩, turns := [.host] }) = some [.poll .enc] := by
  decide +kernel

/-- The whole-input functions: TS2 to TS6, TD15, TD28, TD46. -/
theorem test_functions :
    codecEncode small [0x66#8] = [0x5A#8, 0x67#8, 0x3D#8, 0x3D#8] ∧
      codecEncode small [0x66#8, 0x6F#8] = [0x5A#8, 0x6D#8, 0x38#8, 0x3D#8] ∧
      codecEncode small [0x66#8, 0x6F#8, 0x6F#8] = [0x5A#8, 0x6D#8, 0x39#8, 0x76#8] ∧
      codecDecode small [0x5A#8, 0x6D#8, 0x39#8, 0x76#8] = .ok [0x66#8, 0x6F#8, 0x6F#8] ∧
      codecDecode small [0x5A#8, 0x6D#8, 0x39#8] = .error .malformedLength ∧
      codecDecode small [0x5A#8, 0x68#8, 0x3D#8, 0x3D#8] = .ok [0x66#8] ∧
      codecDecode small [0x3F#8] = .error .malformedLength ∧
      codecDecode small [0x3F#8, 0x41#8, 0x41#8, 0x41#8, 0x3D#8, 0x41#8, 0x41#8, 0x41#8] = .error .misplacedPadding := by
  refine ⟨?_, ?_, ?_, ?_, ?_, ?_, ?_, ?_⟩ <;> rfl

/-- Placing a table word: the very next step from reset runs it. -/
theorem test_withFetchWord :
    partOf answerOf (step (State.reset.withFetchWord 8 0x41)) = some (some (.cls (.val 0#6))) ∧
      partOf (fun t => t.enc.obuf) (step (State.reset.withFetchWord 24 0x666F6F)) =
        some [(0, 0x5A#8), (1, 0x6D#8), (2, 0x39#8), (3, 0x76#8)] ∧
      partOf (fun t => t.dec.obuf) (step (State.reset.withFetchWord 12 0b011001100001)) = some [(0, 0x66#8)] := by
  decide +kernel

/-! ## What stops -/

theorem test_stops :
    faultOf (exec (.enc3 0#8 0#8 0#8) (State.resetWith small)) = some .stepNotEnabled ∧
      refusalOf (exec (.hRdIbuf .enc 15) (State.resetWith small)) = some .noSuchLocation ∧
      refusalOf (runCode (.write .enc (.obuf 20) 0) (State.resetWith small)) = some .noSuchLocation ∧
      refusalOf (exec (.hWrIlen .enc 16) (State.resetWith small)) = some .operandOutOfRange ∧
      refusalOf (exec .padsym (State.resetWith { small with pad := 0x41#8 })) = some .illFormedConfiguration ∧
      refusalOf (step { State.resetWith small with host := ⟨[.op .lenfail], none, []⟩ }) = some .notAHostAccess ∧
      refusalOf (runCode (.read .enc (.reg 4)) (State.resetWith small)) = some (.undecodable .noSuchRegister) := by
  decide +kernel

/-! ## Witnesses: states and operands that meet the hypotheses of the statements

Each names the statements it serves, and shows the hypotheses together at one state and its operands. -/

theorem witness_busy_invariant_enc : Inv (encAt [0x66#8, 0x6F#8, 0x6F#8, 0x62#8] 0 0) := by
  refine ⟨small_wf, ?_, ?_⟩ <;> constructor <;> decide

theorem witness_busy_invariant_dec : Inv (decAt [0x5A#8, 0x6D#8, 0x39#8, 0x76#8] 0 0) := by
  refine ⟨small_wf, ?_, ?_⟩ <;> constructor <;> decide

theorem witness_done_invariant_enc : Inv (encDone [0x66#8] [0x5A#8, 0x67#8, 0x3D#8, 0x3D#8]) := by
  refine ⟨small_wf, ?_, ?_⟩ <;> constructor <;> decide

theorem witness_done_invariant_dec : Inv (decDone [0x5A#8, 0x67#8, 0x3D#8, 0x3D#8] none [0x66#8]) := by
  refine ⟨small_wf, ?_, ?_⟩ <;> constructor <;> decide

theorem witness_error_invariant_dec : Inv (decDone [0x3F#8] (some .malformedLength) []) := by
  refine ⟨small_wf, ?_, ?_⟩ <;> constructor <;> decide

/-- The configuration alone: the statements with `c.WF` or `s.cfg.WF` as their only hypothesis
(SymofAndPadsymReadTheAlphabet, ClassComparesWithTheAlphabet, HostReadsTheStatus, HostReadsBackTheInput,
AccessesInTheWrongDirection, ResetMeetsTheInvariant, ResetPutsBothUnitsInIdle, PseudoOperationsExpand, and others). -/
theorem witness_config : State.reset.cfg.WF ∧ least.WF ∧ (State.resetWith small).cfg.WF := by decide +kernel

/-- LookupsAreInverse, both clauses. -/
theorem witness_LookupsAreInverse : small.WF ∧ classOf small 0x2F#8 = .val 63#6 := ⟨small_wf, by decide +kernel⟩

/-- ClassComparesWithTheAlphabet: a code of each class. -/
theorem witness_ClassComparesWithTheAlphabet :
    0x3D#8 = small.pad ∧ 0x2F#8 = small.alpha[(63#6 : Val).toNat]'(by decide) ∧ classOf small 0x2D#8 = .unk := by
  decide +kernel

/-- SymbolRowsGiveTheirClass, for the first row, the last, and an unknown code. -/
theorem witness_SymbolRowsGiveTheirClass :
    encode .sym0 = .sym8 0x41#8 ∧ encode .symPad = .sym8 0x3D#8 ∧ encode (.symUnk 0xFF#8) = .sym8 0xFF#8 := ⟨rfl, rfl, rfl⟩

/-- ClassicRowsHaveTheirClasses. -/
theorem witness_ClassicRowsHaveTheirClasses :
    State.reset.cfg.WF ∧ State.reset.cfg.alpha = classicConfig.alpha ∧ State.reset.cfg.pad = classicConfig.pad ∧
      symRows[63]? = some .sym63 ∧ (Instr.symUnk 0x7B#8).wf State.reset.cfg = true := by
  refine ⟨witness_config.1, rfl, rfl, rfl, by decide⟩

/-- EncStartBeginsATransaction, EncTransactionComputesEncode, EmptyInputGivesEmptyOutput: not BUSY, with no input and with
some; the BUSY clause. -/
theorem witness_EncStart :
    (encDone [0x66#8] [0x5A#8, 0x67#8, 0x3D#8, 0x3D#8]).enc.st ≠ .busy ∧ (State.resetWith small).enc.st ≠ .busy ∧
      (State.resetWith small).enc.ilen = 0 ∧ (encAt [0x66#8] 0 0).enc.st = .busy := by decide

/-- Enc3EncodesAFullGroup, at the last group that fits `LEN_W` = 2. -/
theorem witness_Enc3 :
    let s := { encAt [1#8, 2#8, 3#8] 0 0 with cfg := least }
    s.cfg.WF ∧ s.enc.st = .busy ∧ s.enc.rp + 3 ≤ s.enc.ilen ∧ s.enc.rp + 3 ≤ ibufSize s.cfg .enc ∧
      s.enc.wp + 4 ≤ obufSize s.cfg .enc := ⟨witness_config.2.1, by decide⟩

/-- Enc2EncodesTwoTrailingBytes. -/
theorem witness_Enc2 :
    let s := encAt [1#8, 2#8, 3#8, 4#8, 5#8] 3 4
    s.cfg.WF ∧ s.enc.st = .busy ∧ s.enc.rp + 2 = s.enc.ilen ∧ s.enc.rp + 2 ≤ ibufSize s.cfg .enc ∧
      s.enc.wp + 4 ≤ obufSize s.cfg .enc := ⟨small_wf, by decide⟩

/-- Enc1EncodesOneTrailingByte. -/
theorem witness_Enc1 :
    let s := encAt [1#8] 0 0
    s.cfg.WF ∧ s.enc.st = .busy ∧ s.enc.rp + 1 = s.enc.ilen ∧ s.enc.rp + 1 ≤ ibufSize s.cfg .enc ∧
      s.enc.wp + 4 ≤ obufSize s.cfg .enc := ⟨small_wf, by decide⟩

/-- EncFinishPublishesTheLength. -/
theorem witness_EncFinish :
    let s := encAt [1#8] 1 4
    s.cfg.WF ∧ s.enc.st = .busy ∧ s.enc.rp = s.enc.ilen := ⟨small_wf, by decide⟩

/-- EncStepIsSelectedByBytesLeft: the four selections (`rem` = 3, 2, 1, 0) and the unit that is not BUSY. -/
theorem witness_EncStepIsSelectedByBytesLeft :
    let left := fun rp => (encAt [1#8, 2#8, 3#8] rp 0).enc.ilen - (encAt [1#8, 2#8, 3#8] rp 0).enc.rp
    left 0 = 3 ∧ left 1 = 2 ∧ left 2 = 1 ∧ left 3 = 0 ∧ (encAt [1#8, 2#8, 3#8] 3 0).enc.rp ≤ 3 ∧
      (State.resetWith small).enc.st ≠ .busy := by decide

/-- EncodeLengthAndInjectivity: the third clause, a state that meets the invariant in which ENC.FINISH answers a next
state. -/
theorem witness_EncodeLengthAndInjectivity :
    Inv (encAt [] 0 0) ∧ ∃ t, exec .encFinish (encAt [] 0 0) = .next t := by
  refine ⟨⟨small_wf, ?_, ?_⟩, answersNext (by decide +kernel)⟩ <;> constructor <;> decide

/-- EncodeShape: an input with two padding symbols, index 1 (a value symbol) and 2 (padding). -/
theorem witness_EncodeShape :
    (codecEncode small [0x66#8])[1]? = some 0x67#8 ∧ (codecEncode small [0x66#8])[2]? = some 0x3D#8 ∧
      (codecEncode small [0x66#8]).length = 4 := ⟨rfl, rfl, rfl⟩

/-- DecStartBeginsATransaction, DecTransactionComputesDecode, EmptyInputGivesEmptyOutput. -/
theorem witness_DecStart :
    (decDone [0x3F#8] (some .malformedLength) []).dec.st ≠ .busy ∧ (State.resetWith small).dec.st ≠ .busy ∧
      (State.resetWith small).dec.ilen = 0 ∧ (decAt [0x41#8] 0 0).dec.st = .busy := by decide

/-- DecLenfailReportsMalformedLength. -/
theorem witness_DecLenfail :
    let s := decAt [0x41#8] 0 0
    s.cfg.WF ∧ s.dec.st = .busy ∧ s.dec.ilen % 4 ≠ 0 := ⟨small_wf, by decide⟩

/-- Dec4DecodesAFullGroup, at the last group that fits `LEN_W` = 2. -/
theorem witness_Dec4 :
    let s := { decAt [0x41#8, 0x41#8, 0x41#8, 0x41#8] 0 0 with cfg := least }
    s.cfg.WF ∧ s.dec.st = .busy ∧ s.dec.ilen % 4 = 0 ∧ s.dec.rp < s.dec.ilen ∧
      s.dec.rp + 4 ≤ ibufSize s.cfg .dec ∧ s.dec.wp + 3 ≤ obufSize s.cfg .dec := ⟨witness_config.2.1, by decide⟩

/-- Dec3DecodesAGroupWithOnePad, Dec2DecodesAGroupWithTwoPads. -/
theorem witness_Dec3_Dec2 :
    let s := decAt [0x41#8, 0x41#8, 0x41#8, 0x3D#8] 0 0
    s.cfg.WF ∧ s.dec.st = .busy ∧ s.dec.ilen % 4 = 0 ∧ s.dec.rp + 4 = s.dec.ilen ∧
      s.dec.rp + 4 ≤ ibufSize s.cfg .dec ∧ s.dec.wp + 2 ≤ obufSize s.cfg .dec ∧ s.dec.wp + 1 ≤ obufSize s.cfg .dec :=
  ⟨small_wf, by decide⟩

/-- DecGrperrNotesAnInvalidGroup: VVVP not last, and UVPV last (both flags). -/
theorem witness_DecGrperr :
    let s := decAt [0x41#8, 0x41#8, 0x41#8, 0x3D#8, 0x3F#8, 0x41#8, 0x3D#8, 0x41#8] 0 0
    let r := decAt [0x41#8, 0x41#8, 0x41#8, 0x3D#8, 0x3F#8, 0x41#8, 0x3D#8, 0x41#8] 4 0
    s.cfg.WF ∧ s.dec.st = .busy ∧ s.dec.ilen % 4 = 0 ∧ s.dec.rp < s.dec.ilen ∧ r.dec.rp < r.dec.ilen ∧
      r.dec.rp + 4 ≤ ibufSize r.cfg .dec ∧ r.dec.wp ≤ obufSize r.cfg .dec ∧
      (false = true ↔ s.dec.rp + 4 = s.dec.ilen) ∧ (true = true ↔ r.dec.rp + 4 = r.dec.ilen) ∧
      (Instr.decGrperr cV cV cV cP false).wf s.cfg = true ∧ (Instr.decGrperr cU cV cP cV true).wf r.cfg = true :=
  ⟨small_wf, by decide⟩

/-- DecFinishReportsTheOutcome: the three clauses. -/
theorem witness_DecFinish :
    let s := decAt [0x41#8, 0x41#8, 0x41#8, 0x41#8] 4 3
    s.cfg.WF ∧ s.dec.st = .busy ∧ s.dec.ilen % 4 = 0 ∧ s.dec.rp = s.dec.ilen ∧ s.paderr = false ∧ s.unkerr = false ∧
      ({ s with paderr := true } : State).paderr = true ∧ ({ s with unkerr := true } : State).unkerr = true :=
  ⟨small_wf, by decide⟩

/-- DecStepIsSelectedByStateAndGroup: a bad length, a group, the end of the input, and the unit that is not BUSY. -/
theorem witness_DecStepIsSelectedByStateAndGroup :
    (decAt [0x41#8] 0 0).dec.ilen % 4 ≠ 0 ∧ (decAt [0x41#8, 0x41#8, 0x41#8, 0x41#8] 0 0).dec.rp < 4 ∧
      (decAt [0x41#8, 0x41#8, 0x41#8, 0x41#8] 4 3).dec.rp = 4 ∧ (State.resetWith small).dec.st ≠ .busy := by decide

/-- DecodeLength: an accepted input with two padding symbols. -/
theorem witness_DecodeLength : codecDecode small [0x5A#8, 0x67#8, 0x3D#8, 0x3D#8] = .ok [0x66#8] := rfl

/-- DecodeInvertsEncode, second clause: DEC holds what ENC put out for one byte. -/
theorem witness_DecodeInvertsEncode :
    let s := decDone [0x5A#8, 0x67#8, 0x3D#8, 0x3D#8] none [0x66#8]
    Inv s ∧ s.dec.st ≠ .busy ∧ inputOf s .dec = codecEncode s.cfg [0x66#8] :=
  ⟨witness_done_invariant_dec, by decide, rfl⟩

/-- DroppedBitsAreIgnored: values that differ only in the dropped bits, and groups before the last that decode and hold
no padding. -/
theorem witness_DroppedBitsAreIgnored :
    (60#6 : Val) >>> 2 = (63#6 : Val) >>> 2 ∧ (32#6 : Val) >>> 4 = (47#6 : Val) >>> 4 ∧ small.WF ∧
      ([0x5A#8, 0x6D#8, 0x39#8, 0x76#8] : List Symbol).length % 4 = 0 ∧
      codecDecode small [0x5A#8, 0x6D#8, 0x39#8, 0x76#8] = .ok [0x66#8, 0x6F#8, 0x6F#8] ∧
      small.pad ∉ ([0x5A#8, 0x6D#8, 0x39#8, 0x76#8] : List Symbol) :=
  ⟨by decide, by decide, small_wf, rfl, rfl, by decide⟩

/-- StepThatIsNotEnabledFaults: after reset no unit step is enabled. -/
theorem witness_StepThatIsNotEnabledFaults :
    let s := State.resetWith small
    s.cfg.WF ∧ s.enc.st ≠ .busy ∧ s.dec.st ≠ .busy := ⟨small_wf, by decide⟩

/-- HostWritesAnInputElement, HostSetsTheInputLength, HostReadsAnOutputElement, BusyUnitIgnoresWrites: the last index of
each buffer and the greatest lengths. -/
theorem witness_last_indices :
    14 < ibufSize small .enc ∧ 30 < ibufSize small .dec ∧ 19 < obufSize small .enc ∧ 20 < obufSize small .dec ∧
      15 < 2 ^ ilenWidth small .enc ∧ 31 < 2 ^ ilenWidth small .dec := by decide

/-- HostStartIsTheUnitsStart, AccessesInTheWrongDirection: written values with bit 0 set and clear, at the ends of the
range. -/
theorem witness_control_values :
    (0x01#8).getLsbD 0 = true ∧ (0xFF#8).getLsbD 0 = true ∧ (0x00#8).getLsbD 0 = false ∧ (0xFE#8).getLsbD 0 = false ∧
      254 < 256 ∧ 254 % 2 = 0 ∧ 3 < 4 := by decide

/-- HostReadsTheStatus, HostReadsTheOutputLength: BUSY, DONE with an error, under the invariant. -/
theorem witness_HostReadsTheStatus :
    Inv (decDone [0x3F#8] (some .malformedLength) []) ∧ Inv (decAt [0x5A#8, 0x6D#8, 0x39#8, 0x76#8] 0 0) ∧
      (decAt [0x5A#8, 0x6D#8, 0x39#8, 0x76#8] 0 0).dec.st = .busy :=
  ⟨witness_error_invariant_dec, witness_busy_invariant_dec, rfl⟩

/-- HostReadsAnOutputElement: an element of the result, the first index past it, and a unit that is not DONE. -/
theorem witness_HostReadsAnOutputElement :
    let s := encDone [0x66#8] [0x5A#8, 0x67#8, 0x3D#8, 0x3D#8]
    Inv s ∧ s.enc.st = .done ∧ 3 < s.enc.olen ∧ s.enc.obuf.read 3 = some 0x3D#8 ∧ ¬ (s.enc.st = .done ∧ 4 < s.enc.olen) :=
  ⟨witness_done_invariant_enc, by decide⟩

/-- HostReadsBackTheInput: an element that is written, one that is not, and an operation after which it reads the same. -/
theorem witness_HostReadsBackTheInput :
    (encAt [0x66#8] 0 0).enc.ibuf.read 0 = some 0x66#8 ∧ (encAt [0x66#8] 0 0).enc.ibuf.read 14 = none ∧
      (∃ t, exec .encStart (State.resetWith small) = .next t) ∧
      ∀ d, Instr.encStart ≠ .hWrIbuf .enc 0 d :=
  ⟨rfl, rfl, answersNext (by decide +kernel), nofun⟩

/-- BusyUnitIgnoresWrites, last clause: an operation of the other unit. -/
theorem witness_BusyUnitIgnoresWrites :
    (encAt [0x66#8] 0 0).enc.st = .busy ∧ ∃ w, unitOf (.hWrIbuf .dec 0 0x5A#8) = some w ∧ w ≠ .enc :=
  ⟨rfl, .dec, rfl, by decide⟩

/-- WhatDoesNotExistIsRefused: the first index past each buffer, register 4, and an ill-formed configuration. -/
theorem witness_WhatDoesNotExistIsRefused :
    ibufSize small .enc ≤ 15 ∧ ibufSize small .dec ≤ 31 ∧ obufSize small .enc ≤ 20 ∧ obufSize small .dec ≤ 21 ∧
      ¬ ({ small with pad := 0x41#8 } : Config).WF ∧ ¬ ({ small with lenW := 1 } : Config).WF := by decide +kernel

theorem witness_reset_invariant : Inv (State.resetWith small) := by
  refine ⟨small_wf, ?_, ?_⟩ <;> constructor <;> decide

/-- EncodePseudoOperationDelivers: from reset, and while DEC is BUSY, with turns prescribed and a line left in the script; the
longest input. -/
theorem witness_EncodePseudoOperationDelivers :
    let s := State.resetWith small
    let r := { decAt [0x5A#8, 0x6D#8, 0x39#8, 0x76#8] 0 0 with
      turns := [.host, .dec, .enc, .host], host := ⟨[.poll .dec], none, []⟩ }
    Inv s ∧ s.enc.st ≠ .busy ∧ .reset ∉ s.turns ∧ Inv r ∧ r.enc.st ≠ .busy ∧ r.dec.st = .busy ∧ .reset ∉ r.turns ∧
      (List.replicate 15 0x66#8).length < 2 ^ small.lenW := by
  refine ⟨witness_reset_invariant, by decide, by decide, ⟨small_wf, ?_, ?_⟩, by decide, rfl, by decide, by decide⟩ <;>
    constructor <;> decide

/-- DecodePseudoOperationDelivers: from reset, and while ENC is BUSY, with turns prescribed and a line left in the script; the
longest input. -/
theorem witness_DecodePseudoOperationDelivers :
    let s := State.resetWith small
    let r := { encAt [0x66#8, 0x6F#8, 0x6F#8, 0x62#8] 0 0 with
      turns := [.host, .dec, .enc, .host], host := ⟨[.poll .enc], none, []⟩ }
    Inv s ∧ s.dec.st ≠ .busy ∧ .reset ∉ s.turns ∧ Inv r ∧ r.dec.st ≠ .busy ∧ r.enc.st = .busy ∧ .reset ∉ r.turns ∧
      (List.replicate 31 0x41#8).length < 2 ^ (small.lenW + 1) := by
  refine ⟨witness_reset_invariant, by decide, by decide, ⟨small_wf, ?_, ?_⟩, by decide, rfl, by decide, by decide⟩ <;>
    constructor <;> decide

/-- StepRunsTheDecodedOperation: a unit's turn, a line that is an operation, the three other lines that make an access, and
the two that make none. -/
theorem witness_StepRunsTheDecodedOperation :
    let s := encAt [0x66#8] 0 0
    let r := fun l : Line => { State.resetWith small with host := ⟨[l], none, []⟩ }
    s.nextAgent = .enc ∧ (s.unit .enc).st = .busy ∧ unitFetch s.popTurn .enc = some (.g12 (wordG12 0x66#8)) ∧
      instrOf (.g12 (wordG12 0x66#8)) = some (.enc1 0x66#8) ∧
      (∀ l, (r l).nextAgent = .host ∧ (r l).host.script = [l] ∧ (r l).cfg.WF) ∧
      (lineCode (.op (.read .enc (.reg 1))) = some (.read .enc (.reg 1)) ∧
        lineCode (.poll .enc) = some (.read .enc (.reg 1)) ∧ lineCode (.gather .dec) = some (.read .dec (.reg 3)) ∧
        lineCode (.take .enc 0) = some (.read .enc (.obuf 0)) ∧ lineCode .judge = none ∧ lineCode (.deliver .dec) = none) ∧
      (hostMayIssue (.read .enc (.reg 1)) = true ∧ hostMayIssue (.read .dec (.reg 3)) = true ∧
        hostMayIssue (.read .enc (.obuf 0)) = true) ∧
      instrOf (.read .enc (.reg 1)) = some (.hRdStatus .enc) ∧ instrOf (.read .dec (.reg 3)) = some (.hRdOlen .dec) ∧
      instrOf (.read .enc (.obuf 0)) = some (.hRdObuf .enc 0) :=
  ⟨rfl, rfl, rfl, by decide, fun _ => ⟨rfl, rfl, small_wf⟩, ⟨rfl, rfl, rfl, rfl, rfl, rfl⟩, ⟨rfl, rfl, rfl⟩, rfl, rfl, rfl⟩

/-- DecodingAnEncodedOperation, EncodingADecodedOperation. -/
theorem witness_round_trips :
    (Instr.hRdIbuf .dec 30).wf small = true ∧ instrOf (.read .dec (.ibuf 30)) = some (.hRdIbuf .dec 30) ∧
      ∀ u w, Code.read .dec (.ibuf 30) ≠ .ctrl8 u w := ⟨by decide, rfl, nofun⟩

/-- StepKeepsTheInvariant, ConfigurationIsNeverWritten, StatusTransitions, InputAndResultAreStable: a state that meets the
invariant, whose next step leads on, at a turn that is not reset's; and one at reset's turn. -/
theorem witness_steps :
    Inv (encAt [0x66#8, 0x6F#8, 0x6F#8, 0x62#8] 0 0) ∧
      (∃ t, step (encAt [0x66#8, 0x6F#8, 0x6F#8, 0x62#8] 0 0) = .next t) ∧
      (encAt [0x66#8, 0x6F#8, 0x6F#8, 0x62#8] 0 0).nextAgent ≠ .reset ∧
      ({ encAt [0x66#8] 0 0 with turns := [.reset] } : State).nextAgent = .reset := by
  exact ⟨witness_busy_invariant_enc, answersNext (by decide +kernel), by decide, rfl⟩

/-- InputAndResultAreStable, second clause: DONE before and after a write to the input buffer (TH19). -/
theorem witness_result_stays :
    partOf (fun t => (t.enc.st, t.enc.obuf, t.enc.olen))
        (step { encDone [0x66#8] [0x5A#8, 0x67#8, 0x3D#8, 0x3D#8] with
          host := ⟨[.op (.write .enc (.ibuf 0) 0)], none, []⟩ }) =
      some (.done, [(0, 0x5A#8), (1, 0x67#8), (2, 0x3D#8), (3, 0x3D#8)], 4) := by decide +kernel

/-- UnitsAreIndependent, OnlyTwoOperationsRaise, TurnsOfTheUnitsCommute: both units BUSY, and a next state of each turn. -/
theorem witness_both_units :
    let s := { encAt [0x66#8] 0 0 with dec := (decAt [0x5A#8, 0x67#8, 0x3D#8, 0x3D#8] 0 0).dec }
    partOf (fun t => t.enc.wp) (turn .enc s) = some 4 ∧ partOf (fun t => t.dec.wp) (turn .dec s) = some 1 ∧
      unitOf .encFinish ≠ some .dec ∧ unitOf .decFinish ≠ some .enc := by decide +kernel

/-- BusyUnitsReachDone, ReachableStepsNeverFault: under the invariant, with no turn prescribed and a unit BUSY. -/
theorem witness_BusyUnitsReachDone :
    Inv (decAt [0x5A#8, 0x6D#8, 0x39#8, 0x76#8] 0 0) ∧ (decAt [0x5A#8, 0x6D#8, 0x39#8, 0x76#8] 0 0).turns = [] ∧
      (decAt [0x5A#8, 0x6D#8, 0x39#8, 0x76#8] 0 0).nextAgent ≠ .host :=
  ⟨witness_busy_invariant_dec, rfl, by decide⟩

end Sys2Proof.Tests
end

section
/-! SUPPORT. The invariant of the reachable states (10_state.md R26): each way a unit can change keeps it, hence every change
of CORE and every step does; and the state after reset (R25) meets it. -/

namespace Sys2Proof.Machine

variable {s t : State}

/-! ## ENC -/

/-- The invariant of ENC speaks of the configuration and of ENC alone. -/
theorem EncInv.of_eq (h : EncInv s) (hc : t.cfg = s.cfg) (he : t.enc = s.enc) : EncInv t := by
  cases h
  constructor <;> simp only [hc, he] <;> assumption

theorem EncInv.of_reset (h : s.enc = .reset) : EncInv s := by
  constructor <;> simp [h, CodecUnit.reset, Memory.wf, Memory.within]

theorem EncInv.started (h : EncInv s) : EncInv { s with enc := s.enc.started } :=
  { h with
    errOk := rfl
    olenFits := Nat.two_pow_pos _
    idleLength := nofun
    busyRead := fun _ => ⟨Nat.zero_le _, .inl rfl⟩
    busyWritten := fun _ => by simp
    busyLength := fun _ => rfl
    busyOutput := fun _ _ hi => absurd hi (Nat.not_lt_zero _)
    doneOutput := nofun }

theorem EncInv.writeInput (h : EncInv s) {i : Nat} (e : BitVec 8) (hi : i < ibufSize s.cfg .enc) :
    EncInv { s with enc := { s.enc with ibuf := s.enc.ibuf.write i e } } :=
  { h with
    ibufForm := Memory.wf_write _ _ _ h.ibufForm
    ibufWithin := Memory.within_write _ _ _ _ h.ibufWithin hi }

theorem EncInv.writeLength (h : EncInv s) {n : Nat} (hb : s.enc.st ≠ .busy) (hn : n < 2 ^ ilenWidth s.cfg .enc) :
    EncInv { s with enc := { s.enc with ilen := n } } :=
  { h with
    ilenFits := hn
    busyRead := fun h => absurd h hb }

/-- After a group step every element below the new write pointer has been written, when it had been below the old one. -/
theorem CodecUnit.isSome_read_moved {x : CodecUnit} {n i : Nat} {out : List (BitVec 8)}
    (h : ∀ i, i < x.wp → (x.obuf.read i).isSome) (hi : i < x.wp + out.length) :
    ((x.moved n out).obuf.read i).isSome := by
  rw [x.read_moved]
  split_ifs with hin
  · rw [List.getElem?_eq_getElem (by omega)]; rfl
  · exact h i (by omega)

/-- A group step of ENC: only the last one takes fewer than three bytes, so that `RP` stays a multiple of 3 until `ILEN`, and
every group puts out four symbols (R26 (c)). -/
theorem EncInv.moved (h : EncInv s) {n : Nat} {out : List Symbol} (hb : s.enc.st = .busy) (hn : 1 ≤ n ∧ n ≤ 3)
    (ho : out.length = 4) (hl : n = 3 ∧ s.enc.rp + 3 ≤ s.enc.ilen ∨ s.enc.rp + n = s.enc.ilen)
    (hw : s.enc.wp + 4 ≤ obufSize s.cfg .enc) : EncInv { s with enc := s.enc.moved n out } := by
  have hr := h.busyRead hb
  have hwp := h.busyWritten hb
  exact { h with
    obufForm := Memory.wf_writeAll _ _ _ h.obufForm
    obufWithin := Memory.within_writeAll _ _ _ _ h.obufWithin (by rw [ho]; exact hw)
    busyRead := fun _ => by simp only [CodecUnit.moved_rp, CodecUnit.moved_ilen]; omega
    busyWritten := fun _ => by simp only [CodecUnit.moved_rp, CodecUnit.moved_wp]; omega
    busyOutput := fun _ _ hi => CodecUnit.isSome_read_moved (h.busyOutput hb) hi
    doneOutput := fun hd => by simp [hb] at hd }

/-- `ENC.OLEN` can hold the length of the output: `4 * ceil(ILEN / 3) < 2^(LEN_W+1)` for `LEN_W >= 2` (R14). -/
theorem EncInv.wp_fits (h : EncInv s) (hw : 2 ≤ s.cfg.lenW) (hb : s.enc.st = .busy) (hl : s.enc.rp = s.enc.ilen) :
    s.enc.wp < 2 ^ olenWidth s.cfg := by
  have hwp := h.busyWritten hb
  have hi := h.ilenFits
  have h4 : 2 ^ 2 ≤ 2 ^ s.cfg.lenW := Nat.pow_le_pow_right (by omega) hw
  rw [ilenWidth] at hi
  rw [olenWidth, Nat.pow_succ]
  omega

theorem EncInv.finished (h : EncInv s) (hw : 2 ≤ s.cfg.lenW) (hb : s.enc.st = .busy) (hl : s.enc.rp = s.enc.ilen) :
    EncInv { s with enc := s.enc.finished s.enc.wp none } :=
  { h with
    errOk := rfl
    olenFits := h.wp_fits hw hb hl
    idleLength := nofun
    busyRead := nofun
    busyWritten := nofun
    busyLength := nofun
    busyOutput := nofun
    doneOutput := fun _ => h.busyOutput hb }

/-! ## DEC -/

/-- The invariant of DEC speaks of the configuration and of DEC without its flags. -/
theorem DecInv.of_eq (h : DecInv s) (hc : t.cfg = s.cfg) (hd : t.dec = s.dec) : DecInv t := by
  cases h
  constructor <;> simp only [hc, hd] <;> assumption

theorem DecInv.of_reset (h : s.dec = .reset) : DecInv s := by
  constructor <;> simp [h, CodecUnit.reset, Memory.wf, Memory.within]

theorem DecInv.started (h : DecInv s) (p k : Bool) :
    DecInv { s with dec := s.dec.started, paderr := p, unkerr := k } :=
  { h with
    olenFits := Nat.two_pow_pos _
    errOnlyDone := fun he => absurd rfl he
    idleLength := nofun
    busyRead := fun _ _ => ⟨Nat.zero_le _, rfl⟩
    busyWritten := fun _ _ => Nat.zero_le _
    busyLength := fun _ => rfl
    busyOutput := fun _ _ _ hi => absurd hi (Nat.not_lt_zero _)
    doneOutput := nofun }

theorem DecInv.writeInput (h : DecInv s) {i : Nat} (e : BitVec 8) (hi : i < ibufSize s.cfg .dec) :
    DecInv { s with dec := { s.dec with ibuf := s.dec.ibuf.write i e } } :=
  { h with
    ibufForm := Memory.wf_write _ _ _ h.ibufForm
    ibufWithin := Memory.within_write _ _ _ _ h.ibufWithin hi }

theorem DecInv.writeLength (h : DecInv s) {n : Nat} (hb : s.dec.st ≠ .busy) (hn : n < 2 ^ ilenWidth s.cfg .dec) :
    DecInv { s with dec := { s.dec with ilen := n } } :=
  { h with
    ilenFits := hn
    busyRead := fun h => absurd h hb
    busyWritten := fun h => absurd h hb
    busyOutput := fun h => absurd h hb }

/-- A group step of DEC: it takes four symbols of an input whose length is a multiple of 4 and puts out at most three bytes
(R26 (d)). -/
theorem DecInv.moved (h : DecInv s) {out : List Byte} (p k : Bool) (hb : s.dec.st = .busy) (h4 : s.dec.ilen % 4 = 0)
    (hl : s.dec.rp < s.dec.ilen) (ho : out.length ≤ 3) (hw : s.dec.wp + out.length ≤ obufSize s.cfg .dec) :
    DecInv { s with dec := s.dec.moved 4 out, paderr := p, unkerr := k } := by
  have hr := h.busyRead hb h4
  have hwp := h.busyWritten hb h4
  exact { h with
    obufForm := Memory.wf_writeAll _ _ _ h.obufForm
    obufWithin := Memory.within_writeAll _ _ _ _ h.obufWithin hw
    busyRead := fun _ _ => by simp only [CodecUnit.moved_rp, CodecUnit.moved_ilen]; omega
    busyWritten := fun _ _ => by simp only [CodecUnit.moved_rp, CodecUnit.moved_wp]; omega
    busyOutput := fun _ _ _ hi => CodecUnit.isSome_read_moved (h.busyOutput hb h4) hi
    doneOutput := fun hd => by simp [hb] at hd }

/-- Raising a decode error keeps the invariant of DEC (60_exceptions.md R166). -/
theorem DecInv.raised (h : DecInv s) (e : DecErr) : DecInv (raiseDecodeError e s) :=
  { h with
    olenFits := Nat.two_pow_pos _
    errOnlyDone := fun _ => ⟨rfl, rfl⟩
    idleLength := nofun
    busyRead := nofun
    busyWritten := nofun
    busyLength := nofun
    busyOutput := nofun
    doneOutput := fun _ _ hi => absurd hi (Nat.not_lt_zero _) }

/-- `DEC.OLEN` can hold the length of the output: `3 * (ILEN div 4) < 2^(LEN_W+1)` (R14). -/
theorem DecInv.wp_fits (h : DecInv s) (hb : s.dec.st = .busy) (h4 : s.dec.ilen % 4 = 0) (hl : s.dec.rp = s.dec.ilen) :
    s.dec.wp < 2 ^ olenWidth s.cfg := by
  have hwp := h.busyWritten hb h4
  have hi := h.ilenFits
  rw [ilenWidth] at hi
  rw [olenWidth]
  omega

theorem DecInv.finished (h : DecInv s) (hb : s.dec.st = .busy) (h4 : s.dec.ilen % 4 = 0)
    (hl : s.dec.rp = s.dec.ilen) : DecInv (decFinished s) := by
  unfold decFinished
  split_ifs
  · exact h.raised _
  · exact h.raised _
  · exact { h with
      olenFits := h.wp_fits hb h4 hl
      errOnlyDone := fun he => absurd rfl he
      idleLength := nofun
      busyRead := nofun
      busyWritten := nofun
      busyLength := nofun
      busyOutput := nofun
      doneOutput := fun _ => h.busyOutput hb h4 }

/-! ## CORE -/

/-- DEC.FINISH completes DEC, in one of three ways, and changes nothing else (42_decoder.md R121). -/
theorem decFinished_eq (s : State) : ∃ n e, decFinished s = { s with dec := s.dec.finished n e } := by
  unfold decFinished
  split_ifs
  · exact ⟨0, some .misplacedPadding, rfl⟩
  · exact ⟨0, some .unknownSymbol, rfl⟩
  · exact ⟨s.dec.wp, none, rfl⟩

/-- No change of CORE writes the configuration. -/
theorem Change.cfg (h : Change s t) : t.cfg = s.cfg := by
  cases h with
  | writeInput _ _ _ _ _ h | writeLength _ _ _ _ h => rw [h, State.setUnit_cfg]
  | decFinish _ _ _ h =>
    obtain ⟨n, e, hd⟩ := decFinished_eq s
    rw [h, hd]
  | none h | startEnc _ h | startDec _ h | encGroup _ _ _ _ _ _ _ _ h | encFinish _ _ h | decLenfail _ _ h
  | decGroup _ _ _ _ _ _ _ _ _ _ _ h => subst h; rfl

theorem ChangesCore.cfg (h : ChangesCore s t) : t.cfg = s.cfg :=
  let ⟨_, hv, hs⟩ := h
  hs.cfg.trans hv.cfg

theorem Change.encInv (h : Change s t) (hw : 2 ≤ s.cfg.lenW) (hi : EncInv s) : EncInv t := by
  cases h with
  | none h => exact h ▸ hi
  | startEnc _ h => exact h ▸ hi.started
  | encGroup n out hb hn ho hl _ hw h => exact h ▸ hi.moved hb hn ho hl hw
  | encFinish hb hl h => exact h ▸ hi.finished hw hb hl
  | writeInput u i e _ hlt h =>
    cases u with
    | enc => exact h ▸ hi.writeInput e hlt
    | dec => exact h ▸ hi.of_eq rfl rfl
  | writeLength u n hb hn h =>
    cases u with
    | enc => exact h ▸ hi.writeLength hb hn
    | dec => exact h ▸ hi.of_eq rfl rfl
  | decFinish _ _ _ h =>
    obtain ⟨n, e, hd⟩ := decFinished_eq s
    exact h ▸ hd ▸ hi.of_eq rfl rfl
  | startDec _ h | decLenfail _ _ h | decGroup _ _ _ _ _ _ _ _ _ _ _ h => exact h ▸ hi.of_eq rfl rfl

theorem Change.decInv (h : Change s t) (hi : DecInv s) : DecInv t := by
  cases h with
  | none h => exact h ▸ hi
  | startDec _ h => exact h ▸ hi.started false false
  | decLenfail _ _ h => exact h ▸ hi.raised .malformedLength
  | decGroup out p k hb h4 hl ho _ hw _ _ h => exact h ▸ hi.moved p k hb h4 hl ho hw
  | decFinish hb h4 hl h => exact h ▸ hi.finished hb h4 hl
  | writeInput u i e _ hlt h =>
    cases u with
    | enc => exact h ▸ hi.of_eq rfl rfl
    | dec => exact h ▸ hi.writeInput e hlt
  | writeLength u n hb hn h =>
    cases u with
    | enc => exact h ▸ hi.of_eq rfl rfl
    | dec => exact h ▸ hi.writeLength hb hn
  | startEnc _ h | encGroup _ _ _ _ _ _ _ _ h | encFinish _ _ h => exact h ▸ hi.of_eq rfl rfl

theorem ChangesCore.inv (h : ChangesCore s t) (hi : Inv s) : Inv t := by
  obtain ⟨v, hv, hs⟩ := h
  exact {
    config := by rw [hs.cfg, hv.cfg]; exact hi.config
    enc := (hv.encInv hi.config.2 hi.enc).of_eq hs.cfg hs.enc
    dec := (hv.decInv hi.dec).of_eq hs.cfg hs.dec }

/-- Where both units are as after reset, the invariant is the well-formedness of the configuration (10_state.md R25). -/
theorem Inv.of_reset (hc : s.cfg.WF) (he : s.enc = .reset) (hd : s.dec = .reset) : Inv s :=
  ⟨hc, .of_reset he, .of_reset hd⟩

/-- Settles O50: both units of `State.resetWith` are as after reset. -/
theorem resetMeetsTheInvariant : Obligations.ResetMeetsTheInvariant := fun _ hc => .of_reset hc rfl rfl

/-- A step is a turn of reset or one change of CORE. -/
theorem step_cases (h : step s = .next t) :
    s.nextAgent = .reset ∧ t = applyReset s.popTurn ∨ s.nextAgent ≠ .reset ∧ ChangesCore s t := by
  obtain ⟨hreset, hother⟩ := step_core h
  by_cases ha : s.nextAgent = .reset
  · exact .inl ⟨ha, hreset ha⟩
  · exact .inr ⟨ha, hother ha⟩

/-- Settles O51: a step is a reset, after which both units are as `CodecUnit.reset` says, or one change of CORE. -/
theorem stepKeepsTheInvariant : Obligations.StepKeepsTheInvariant := by
  intro s t hi h
  rcases step_cases h with ⟨-, rfl⟩ | ⟨-, hc⟩
  · exact .of_reset hi.config rfl rfl
  · exact hc.inv hi

/-- Settles O53: neither a reset nor a change of CORE writes the configuration. -/
theorem configurationIsNeverWritten : Obligations.ConfigurationIsNeverWritten := by
  intro s t h
  rcases step_cases h with ⟨-, rfl⟩ | ⟨-, hc⟩
  · rfl
  · exact hc.cfg

end Sys2Proof.Machine
end

section
/-! SUPPORT. What a step can do to one unit, and what follows for its status, its input and its result (10_state.md R17,
R26 (e)). -/

namespace Sys2Proof.Machine

variable {s t : State} {x y : CodecUnit}

/-- `UnitChange x y`: the ways in which a change of CORE can lead from the unit `x` to the unit `y`, by the status they
need. -/
inductive UnitChange (x y : CodecUnit) : Prop
  | same (h : y = x)
  | started (hb : x.st ≠ .busy) (h : y = x.started)
  | inputWritten (hb : x.st ≠ .busy) (m : Memory) (h : y = { x with ibuf := m })
  | lengthWritten (hb : x.st ≠ .busy) (n : Nat) (h : y = { x with ilen := n })
  | moved (hb : x.st = .busy) (n : Nat) (out : List (BitVec 8)) (h : y = x.moved n out)
  | finished (hb : x.st = .busy) (n : Nat) (e : Option DecErr) (h : y = x.finished n e)

/-- A unit that is replaced changes as its replacement says, and the other one stays. -/
theorem UnitChange.of_setUnit {w : UnitId} (h : UnitChange (s.unit w) y) (u : UnitId) :
    UnitChange (s.unit u) ((s.setUnit w y).unit u) := by
  cases w <;> cases u
  · exact h
  · exact .same rfl
  · exact .same rfl
  · exact h

theorem Change.unit (h : Change s t) (u : UnitId) : UnitChange (s.unit u) (t.unit u) := by
  cases h with
  | none h => exact .same (by rw [h])
  | startEnc hb h => exact h ▸ UnitChange.of_setUnit (w := .enc) (.started hb rfl) u
  | writeInput w i e hb _ h => exact h ▸ UnitChange.of_setUnit (.inputWritten hb _ rfl) u
  | writeLength w n hb _ h => exact h ▸ UnitChange.of_setUnit (.lengthWritten hb n rfl) u
  | encGroup n out hb _ _ _ _ _ h => exact h ▸ UnitChange.of_setUnit (w := .enc) (.moved hb n out rfl) u
  | encFinish hb _ h => exact h ▸ UnitChange.of_setUnit (w := .enc) (.finished hb _ _ rfl) u
  | decLenfail hb _ h => exact h ▸ UnitChange.of_setUnit (w := .dec) (.finished hb _ _ rfl) u
  | decFinish hb _ _ h =>
    obtain ⟨n, e, hd⟩ := decFinished_eq s
    exact h ▸ hd ▸ UnitChange.of_setUnit (w := .dec) (.finished hb n e rfl) u
  | startDec hb h =>
    cases u with
    | enc => exact .same (h ▸ rfl)
    | dec => exact .started hb (h ▸ rfl)
  | decGroup out p k hb _ _ _ _ _ _ _ h =>
    cases u with
    | enc => exact .same (h ▸ rfl)
    | dec => exact .moved hb 4 out (h ▸ rfl)

theorem SameCore.unit (h : SameCore s t) (u : UnitId) : t.unit u = s.unit u := by
  cases u
  · exact h.enc
  · exact h.dec

theorem ChangesCore.unit (h : ChangesCore s t) (u : UnitId) : UnitChange (s.unit u) (t.unit u) := by
  obtain ⟨v, hv, hs⟩ := h
  rw [hs.unit]
  exact hv.unit u

/-- The transitions of `ST` but for reset (R17). -/
theorem UnitChange.st_cases (h : UnitChange x y) :
    y.st = x.st ∨ x.st = .idle ∧ y.st = .busy ∨ x.st = .busy ∧ y.st = .done ∨ x.st = .done ∧ y.st = .busy := by
  cases h with
  | same h | inputWritten _ _ h | lengthWritten _ _ h | moved _ _ _ h => exact .inl (h ▸ rfl)
  | finished hb _ _ h => exact .inr (.inr (.inl ⟨hb, h ▸ rfl⟩))
  | started hb h =>
    cases hst : x.st with
    | idle => exact .inr (.inl ⟨rfl, h ▸ rfl⟩)
    | busy => exact absurd hst hb
    | done => exact .inr (.inr (.inr ⟨rfl, h ▸ rfl⟩))

/-- The input of a BUSY unit does not change (R26 (e)). -/
theorem UnitChange.input_of_busy (h : UnitChange x y) (hb : x.st = .busy) : y.ilen = x.ilen ∧ y.ibuf = x.ibuf := by
  cases h with
  | started hn | inputWritten hn | lengthWritten hn => exact absurd hb hn
  | same h | moved _ _ _ h | finished _ _ _ h => subst h; exact ⟨rfl, rfl⟩

/-- The result of a unit that stays DONE does not change: only START, a group step and completion write it, and START leads
to BUSY while the other two need it (R26 (e), R140). -/
theorem UnitChange.result_of_done (h : UnitChange x y) (hx : x.st = .done) (hy : y.st = .done) :
    y.err = x.err ∧ y.olen = x.olen ∧ y.obuf = x.obuf := by
  cases h with
  | started _ h => subst h; exact absurd hy nofun
  | moved hb | finished hb => exact absurd (hx.symm.trans hb) nofun
  | same h | inputWritten _ _ h | lengthWritten _ _ h => subst h; exact ⟨rfl, rfl, rfl⟩

/-- Settles O56: a reset puts both units in IDLE, and any other step changes a unit in one of the ways of `UnitChange`. -/
theorem statusTransitions : Obligations.StatusTransitions := by
  intro s t u h
  rcases step_cases h with ⟨ha, rfl⟩ | ⟨ha, hc⟩
  · exact ⟨fun _ => by cases u <;> rfl, fun hn => absurd ha hn⟩
  · exact ⟨fun hr => absurd hr ha, fun _ => (hc.unit u).st_cases⟩

/-- Settles O57: what changes a unit in a step that is no reset is one of the ways of `UnitChange`. -/
theorem inputAndResultAreStable : Obligations.InputAndResultAreStable := by
  intro s t u h ha
  have hu := ((step_core h).2 ha).unit u
  exact ⟨hu.input_of_busy, hu.result_of_done⟩

end Sys2Proof.Machine
end

section
/-! SUPPORT. Accesses in the wrong direction (10_state.md R20 to R22). -/

namespace Sys2Proof.Machine

variable {s : State}

/-- A write that decodes to an ignored one, to a location that exists, changes nothing. -/
theorem runCode_ignoredWrite {c : Code} {u : UnitId} {p : Place} (hw : s.cfg.WF)
    (hc : decode c = .ok (.ignoredWrite u p)) (hp : placeExists s.cfg u p = true) : runCode c s = .next s := by
  rw [runCode, hc]
  exact ignoreWrite_next.mpr ⟨hw, hp, rfl⟩

/-- A write to CTRL with bit 0 = 0 is no START (R20). -/
theorem runCode_writeCtrl_of_even {u : UnitId} {d : Nat} (hw : s.cfg.WF) (hd : d < 256) (h2 : d % 2 = 0) :
    runCode (.write u (.reg 0) d) s = .next s := by
  have hbit : (BitVec.ofNat 8 d).getLsbD 0 = false := by
    rw [BitVec.getLsbD_ofNat, Nat.testBit_zero, h2]
    rfl
  have hdec : decode (.write u (.reg 0) d) = .ok (.instr (.hStart u (BitVec.ofNat 8 d))) := if_pos hd
  rw [runCode_instr hdec]
  exact underConfig_next.mpr ⟨hw, by rw [hbit]; rfl⟩

/-- Settles O41: STATUS, OLEN and the OBUF window decode to ignored writes, CTRL with an even value to a write that does not
start the unit, and a read of CTRL to `readCtrl`. -/
theorem accessesInTheWrongDirection : Obligations.AccessesInTheWrongDirection := by
  intro s u d hw
  refine ⟨?_, ?_, fun i hi => ?_, runCode_writeCtrl_of_even hw, readCtrl_next.mpr ⟨hw, rfl⟩⟩
  · exact runCode_ignoredWrite hw rfl rfl
  · exact runCode_ignoredWrite hw rfl rfl
  · exact runCode_ignoredWrite hw rfl (decide_eq_true hi)

end Sys2Proof.Machine
end

section
/-! SUPPORT. The two units are independent (10_state.md R10): an operation that belongs to one unit, or to none, commutes
with the replacement of the other unit. -/

namespace Sys2Proof.Machine

/-- The state with unit `w`, the flags of DEC included, as in `d`: `withEncOf` and `withDecOf` in one. -/
def withUnitOf (w : UnitId) (s d : State) : State :=
  match w with
  | .enc => withEncOf s d
  | .dec => withDecOf s d

theorem eq_dec_of_ne {w : UnitId} (h : UnitId.enc ≠ w) : w = .dec := by
  cases w
  · exact absurd rfl h
  · rfl

theorem eq_enc_of_ne {w : UnitId} (h : UnitId.dec ≠ w) : w = .enc := by
  cases w
  · rfl
  · exact absurd rfl h

/-! What the replacement of a unit leaves alone, and what it commutes with. -/

section Replacement

variable (w : UnitId) (s d : State)

@[simp] theorem withUnitOf_cfg : (withUnitOf w s d).cfg = s.cfg := by cases w <;> rfl
@[simp] theorem withUnitOf_freeCount : (withUnitOf w s d).freeCount = s.freeCount := by cases w <;> rfl
@[simp] theorem withUnitOf_resets : (withUnitOf w s d).resets = s.resets := by cases w <;> rfl
@[simp] theorem withUnitOf_self : withUnitOf w s s = s := by cases w <;> rfl

theorem withUnitOf_answering (a : Answer) : (withUnitOf w s d).answering a = withUnitOf w (s.answering a) d := by
  cases w <;> rfl

theorem withUnitOf_useFree : (withUnitOf w s d).useFree = withUnitOf w s.useFree d := by cases w <;> rfl

theorem withUnitOf_pushLines (ls : List Line) : (withUnitOf w s d).pushLines ls = withUnitOf w (s.pushLines ls) d := by
  cases w <;> rfl

variable {w} {u : UnitId} (h : u ≠ w)
include h

theorem withUnitOf_unit : (withUnitOf w s d).unit u = s.unit u := by
  cases u <;> cases w
  · exact absurd rfl h
  · rfl
  · rfl
  · exact absurd rfl h

theorem withUnitOf_setUnit (x : CodecUnit) : (withUnitOf w s d).setUnit u x = withUnitOf w (s.setUnit u x) d := by
  cases u <;> cases w
  · exact absurd rfl h
  · rfl
  · rfl
  · exact absurd rfl h

theorem withUnitOf_startUnit : startUnit u (withUnitOf w s d) = withUnitOf w (startUnit u s) d := by
  by_cases hb : (s.unit u).st = .busy
  · rw [startUnit_busy hb, startUnit_busy (by rwa [withUnitOf_unit s d h])]
  · cases u <;> cases w
    · exact absurd rfl h
    · rw [startUnit_enc hb, startUnit_enc (s := withUnitOf .dec s d) hb]; rfl
    · rw [startUnit_dec hb, startUnit_dec (s := withUnitOf .enc s d) hb]; rfl
    · exact absurd rfl h

theorem withUnitOf_readInput (i : Nat) : readInput (withUnitOf w s d) u i = readInput s u i := by
  rw [readInput, readInput, withUnitOf_unit s d h, withUnitOf_resets]

theorem withUnitOf_resultElem (i : Nat) : resultElem (withUnitOf w s d) u i = resultElem s u i := by
  rw [resultElem, resultElem, withUnitOf_unit s d h]

end Replacement

/-- `Beside w op`: `op` neither reads nor writes unit `w`: it commutes with every replacement of it. -/
def Beside (w : UnitId) (op : State → Res) : Prop :=
  ∀ s d, op (withUnitOf w s d) = mapNext (withUnitOf w · d) (op s)

namespace Beside

variable {w : UnitId}

/-- What does not read unit `w` does not write it. -/
theorem frame {op : State → Res} (h : Beside w op) {s t : State} (ht : op s = .next t) : withUnitOf w t s = t := by
  have := h s s
  rw [withUnitOf_self, ht] at this
  exact (Host.Outcome.next.inj this).symm

theorem next {g : State → State} (h : ∀ s d, g (withUnitOf w s d) = withUnitOf w (g s) d) :
    Beside w fun s => .next (g s) :=
  fun s d => congrArg Host.Outcome.next (h s d)

theorem fault (r : Fault) : Beside w fun _ => .fault r := fun _ _ => rfl

theorem refused (r : Refusal) : Beside w fun _ => .refused r := fun _ _ => rfl

theorem ite {p : State → Prop} [∀ s, Decidable (p s)] {a b : State → Res} (hp : ∀ s d, p (withUnitOf w s d) ↔ p s)
    (ha : Beside w a) (hb : Beside w b) : Beside w fun s => if p s then a s else b s := by
  intro s d
  by_cases h : p s
  · simp only [if_pos h, if_pos ((hp s d).mpr h), ha s d]
  · simp only [if_neg h, if_neg (mt (hp s d).mp h), hb s d]

theorem underConfig {op : State → Res} (h : Beside w op) : Beside w fun s => underConfig s (op s) :=
  ite (fun s d => by rw [withUnitOf_cfg]) h (refused _)

theorem hostAccess {u : UnitId} {p : Place} {op : State → Res} (h : Beside w op) :
    Beside w fun s => hostAccess u p s (op s) :=
  underConfig (ite (fun s d => by rw [withUnitOf_cfg]) h (refused _))

theorem answerWith {a : State → Answer} (ha : ∀ s d, a (withUnitOf w s d) = a s) :
    Beside w fun s => answerWith (a s) s :=
  underConfig (next fun s d => by rw [ha, withUnitOf_answering])

theorem answerClassOf (c : Symbol) : Beside w (answerClassOf c) := answerWith fun s d => by rw [withUnitOf_cfg]

theorem pushing {u : UnitId} {n : Nat} (ls : List Line) :
    Beside w fun s => Machine.underConfig s
      (if n < 2 ^ ilenWidth s.cfg u then .next (s.pushLines ls) else .refused .operandOutOfRange) :=
  underConfig (ite (fun s d => by rw [withUnitOf_cfg]) (next fun s d => withUnitOf_pushLines w s d ls) (refused _))

theorem finishing {b : State → Bool} {g : State → State} (hb : ∀ s d, b (withUnitOf w s d) = b s)
    (hg : ∀ s d, g (withUnitOf w s d) = withUnitOf w (g s) d) : Beside w fun s => finishing (b s) s (g s) :=
  underConfig (ite (fun s d => by rw [hb]) (next hg) (fault _))

theorem encGroup (h : UnitId.enc ≠ w) {b : State → Bool} {n : Nat} {out : State → List Symbol}
    (hb : ∀ s d, b (withUnitOf .dec s d) = b s) (ho : ∀ s d, out (withUnitOf .dec s d) = out s) :
    Beside w fun s => encGroup (b s) n (out s) s := by
  obtain rfl := eq_dec_of_ne h
  exact underConfig <| ite (fun s d => by rw [hb])
    (ite (fun s d => by rw [ho]; rfl) (next fun s d => by rw [ho]; rfl) (fault _)) (fault _)

theorem decGroup (h : UnitId.dec ≠ w) {b p k : State → Bool} {out : List Byte}
    (hb : ∀ s d, b (withUnitOf .enc s d) = b s) (hp : ∀ s d, p (withUnitOf .enc s d) = p s)
    (hk : ∀ s d, k (withUnitOf .enc s d) = k s) : Beside w fun s => decGroup (b s) out (p s) (k s) s := by
  obtain rfl := eq_enc_of_ne h
  exact underConfig <| ite (fun s d => by rw [hb])
    (ite (fun _ _ => .rfl) (next fun s d => by rw [hp, hk]; rfl) (fault _)) (fault _)

/-! The host's accesses to the other unit (43_host_interface.md R140, R148). -/

variable {u : UnitId} (h : u ≠ w)
include h

theorem hWrIbuf (i : Nat) (e : BitVec 8) : Beside w (execHWrIbuf u i e) :=
  hostAccess <| next fun s d => by
    rw [withUnitOf_unit s d h]
    split_ifs
    · rfl
    · exact withUnitOf_setUnit s d h _

theorem hWrIlen (n : Nat) : Beside w (execHWrIlen u n) :=
  underConfig <| ite (fun s d => by rw [withUnitOf_cfg]) (next fun s d => by
    rw [withUnitOf_unit s d h]
    split_ifs
    · rfl
    · exact withUnitOf_setUnit s d h _) (refused _)

theorem hStart (x : BitVec 8) : Beside w (execHStart u x) :=
  underConfig <| next fun s d => by
    cases x.getLsbD 0
    · rfl
    · exact withUnitOf_startUnit s d h

theorem hRdStatus : Beside w (execHRdStatus u) := answerWith fun s d => by rw [withUnitOf_unit s d h]

theorem hRdIlen : Beside w (execHRdIlen u) := answerWith fun s d => by rw [withUnitOf_unit s d h]

theorem hRdIbuf (i : Nat) : Beside w (execHRdIbuf u i) :=
  hostAccess <| next fun s d => by rw [withUnitOf_readInput s d h, withUnitOf_answering]

theorem hRdOlen : Beside w (execHRdOlen u) :=
  underConfig <| next fun s d => by
    rw [withUnitOf_unit s d h, withUnitOf_freeCount, withUnitOf_cfg]
    split_ifs
    · simp only [withUnitOf_answering, withUnitOf_useFree]
    · exact withUnitOf_answering w s d _

theorem hRdObuf (i : Nat) : Beside w (execHRdObuf u i) :=
  hostAccess <| next fun s d => by
    rw [withUnitOf_resultElem s d h, withUnitOf_freeCount]
    cases resultElem s u i with
    | none => simp only [withUnitOf_answering, withUnitOf_useFree]
    | some e => exact withUnitOf_answering w s d _

end Beside

theorem withUnitOf_decFinished (s d : State) : decFinished (withUnitOf .enc s d) = withUnitOf .enc (decFinished s) d := by
  cases hp : s.paderr <;> cases hk : s.unkerr <;> simp [decFinished, withUnitOf, withEncOf, raiseDecodeError, hp, hk]

/-- An operation that does not belong to unit `w` neither reads nor writes it. -/
theorem exec_beside (i : Instr) (w : UnitId) (h : unitOf i ≠ some w) : Beside w (exec i) := by
  have hu : ∀ u, unitOf i = some u → u ≠ w := fun u hi hw => h (hw ▸ hi)
  cases i
  case encStart => exact .underConfig (.next fun s d => withUnitOf_startUnit s d (hu .enc rfl))
  case decStart => exact .underConfig (.next fun s d => withUnitOf_startUnit s d (hu .dec rfl))
  case enc3 | enc2 | enc1 => exact .encGroup (hu .enc rfl) (fun _ _ => rfl) (fun _ _ => rfl)
  case dec4 | dec3 | dec2 | decGrperr =>
    exact .decGroup (hu .dec rfl) (fun _ _ => rfl) (fun _ _ => rfl) (fun _ _ => rfl)
  case encFinish =>
    obtain rfl := eq_dec_of_ne (hu .enc rfl)
    exact .finishing (fun _ _ => rfl) (fun _ _ => rfl)
  case decLenfail =>
    obtain rfl := eq_enc_of_ne (hu .dec rfl)
    exact .finishing (fun _ _ => rfl) (fun _ _ => rfl)
  case decFinish =>
    obtain rfl := eq_enc_of_ne (hu .dec rfl)
    exact .finishing (fun _ _ => rfl) withUnitOf_decFinished
  case hWrIbuf u i e => exact .hWrIbuf (hu u rfl) i e
  case hWrIlen u n => exact .hWrIlen (hu u rfl) n
  case hStart u x => exact .hStart (hu u rfl) x
  case hRdStatus u => exact .hRdStatus (hu u rfl)
  case hRdOlen u => exact .hRdOlen (hu u rfl)
  case hRdObuf u i => exact .hRdObuf (hu u rfl) i
  case hRdIlen u => exact .hRdIlen (hu u rfl)
  case hRdIbuf u i => exact .hRdIbuf (hu u rfl) i
  case pEncode x => exact .pushing (encodeScript x)
  case pDecode x => exact .pushing (decodeScript x)
  case symof | padsym => exact .answerWith fun s d => by rw [withUnitOf_cfg]
  all_goals exact .answerClassOf _

/-- Settles O54: `withDecOf` and `withEncOf` replace one unit, and an operation of the other unit or of none commutes with
that. -/
theorem unitsAreIndependent : Obligations.UnitsAreIndependent := by
  intro i s d
  refine ⟨fun h => ?_, fun h => ?_⟩
  · have hb := exec_beside i .dec h
    exact ⟨hb s d, fun t => hb.frame⟩
  · have hb := exec_beside i .enc h
    exact ⟨hb s d, fun t => hb.frame⟩

end Sys2Proof.Machine
end

section
/-! SUPPORT. What does not exist is refused: locations beyond the buffers, register numbers above 3, and every operation of a
CORE whose configuration is ill-formed (93_implementation_defined.md U1, U6). -/

namespace Sys2Proof.Machine

variable {s : State} {u : UnitId}

/-- Running a code that is no operation is the refusal that names why. -/
theorem runCode_undecodable {c : Code} {e : CodeError} (hw : s.cfg.WF) (h : decode c = .error e) :
    runCode c s = .refused (.undecodable e) := by
  rw [runCode, h]
  exact underConfig_of_wf hw

theorem hostAccess_of_missing {p : Place} {r : Res} (hw : s.cfg.WF) (hp : placeExists s.cfg u p = false) :
    hostAccess u p s r = .refused .noSuchLocation := by
  rw [hostAccess, underConfig_of_wf hw, hp]
  rfl

/-- The decoder rejects a register number above 3, read or written. -/
theorem decode_reg_of_gt {n : Nat} (d : Nat) (hn : 3 < n) :
    decode (.read u (.reg n)) = .error .noSuchRegister ∧ decode (.write u (.reg n) d) = .error .noSuchRegister := by
  obtain ⟨m, rfl⟩ := Nat.exists_eq_add_of_le' hn
  exact ⟨rfl, rfl⟩

/-- The meaning of every operation goes through `underConfig` (40_alphabet.md R88). -/
theorem exec_of_not_wf (i : Instr) (h : ¬ s.cfg.WF) : exec i s = .refused .illFormedConfiguration := by
  cases i <;> exact underConfig_of_not_wf h

/-- Settles O42: registers above 3 do not decode, the windows are accessed through `hostAccess`, and every meaning goes
through `underConfig`. -/
theorem whatDoesNotExistIsRefused : Obligations.WhatDoesNotExistIsRefused := by
  refine ⟨fun s u n d hw hn => ?_, fun s u i e hw hi => ?_, fun s u i hw hi => ?_, fun s i => exec_of_not_wf i⟩
  · obtain ⟨hr, hwr⟩ := decode_reg_of_gt (u := u) d hn
    exact ⟨runCode_undecodable hw hr, runCode_undecodable hw hwr⟩
  · have hp : placeExists s.cfg u (.ibuf i) = false := decide_eq_false (Nat.not_lt.mpr hi)
    exact ⟨hostAccess_of_missing hw hp, hostAccess_of_missing hw hp⟩
  · have hp : placeExists s.cfg u (.obuf i) = false := decide_eq_false (Nat.not_lt.mpr hi)
    exact ⟨hostAccess_of_missing hw hp, fun _ => hostAccess_of_missing hw hp⟩

end Sys2Proof.Machine
end

section
/-! SUPPORT. The turns of the two units commute (20_memory.md R50 (c), (d)): the turn of a unit neither reads nor writes the
other unit, and it changes nothing but its own unit. -/

namespace Sys2Proof.Machine

variable {s t : State} {u w : UnitId} {c : Code} {i : Instr}

/-- `UnitStep u i`: the operation `i` is one of the steps that unit `u` takes itself while BUSY (41_encoder.md R96,
42_decoder.md R122). -/
inductive UnitStep : UnitId → Instr → Prop
  | enc3 (b0 b1 b2 : Byte) : UnitStep .enc (.enc3 b0 b1 b2)
  | enc2 (b0 b1 : Byte) : UnitStep .enc (.enc2 b0 b1)
  | enc1 (b0 : Byte) : UnitStep .enc (.enc1 b0)
  | encFinish : UnitStep .enc .encFinish
  | decLenfail : UnitStep .dec .decLenfail
  | dec4 (v0 v1 v2 v3 : Val) : UnitStep .dec (.dec4 v0 v1 v2 v3)
  | dec3 (v0 v1 v2 : Val) : UnitStep .dec (.dec3 v0 v1 v2)
  | dec2 (v0 v1 : Val) : UnitStep .dec (.dec2 v0 v1)
  | decGrperr (k0 k1 k2 k3 : SymClass) (last : Bool) : UnitStep .dec (.decGrperr k0 k1 k2 k3 last)
  | decFinish : UnitStep .dec .decFinish

theorem UnitStep.unitOf (h : UnitStep u i) : unitOf i = some u := by cases h <;> rfl

/-- A step of a unit changes nothing but that unit, the flags of DEC counted with DEC. -/
theorem UnitStep.only (h : UnitStep u i) (ht : exec i s = .next t) : withUnitOf u s t = t := by
  cases h with
  | enc3 | enc2 | enc1 =>
    obtain ⟨-, -, -, -, rfl⟩ := encGroup_next.mp ht
    rfl
  | dec4 | dec3 | dec2 | decGrperr =>
    obtain ⟨-, -, -, -, rfl⟩ := decGroup_next.mp ht
    rfl
  | encFinish | decLenfail =>
    obtain ⟨-, -, rfl⟩ := finishing_next.mp ht
    rfl
  | decFinish =>
    obtain ⟨-, -, rfl⟩ := finishing_next.mp ht
    obtain ⟨n, e, hd⟩ := decFinished_eq s
    rw [hd]
    rfl

/-- What a unit fetches decodes, if it decodes at all, to one of its steps. -/
theorem unitStep_of_unitFetch {d : Decoded} (hf : unitFetch s u = some c) (hd : decode c = .ok d) :
    ∃ i, d = .instr i ∧ UnitStep u i := by
  cases u with
  | enc =>
    rw [unitFetch, encFetch] at hf
    split_ifs at hf <;> cases hf
    · cases hd; exact ⟨_, rfl, .enc3 ..⟩
    · rw [decode] at hd; split_ifs at hd; cases hd; exact ⟨_, rfl, .enc2 ..⟩
    · rw [decode] at hd; split_ifs at hd; cases hd; exact ⟨_, rfl, .enc1 ..⟩
    · cases hd; exact ⟨_, rfl, .encFinish⟩
  | dec =>
    rw [unitFetch, decFetch] at hf
    split_ifs at hf <;> cases hf
    · cases hd; exact ⟨_, rfl, .decLenfail⟩
    · unfold groupCode at hd
      split at hd
      · cases hd; exact ⟨_, rfl, .dec4 ..⟩
      · cases hd; exact ⟨_, rfl, .dec3 ..⟩
      · cases hd; exact ⟨_, rfl, .dec2 ..⟩
      · rw [decode] at hd; split_ifs at hd; cases hd; exact ⟨_, rfl, .decGrperr ..⟩
    · cases hd; exact ⟨_, rfl, .decFinish⟩

/-- Running a fetched code is one of the unit's steps, or the refusal of a code that does not decode. -/
theorem runCode_of_unitFetch (hf : unitFetch s u = some c) :
    (∃ i, UnitStep u i ∧ runCode c = exec i) ∨
      ∃ e, runCode c = fun r => underConfig r (.refused (.undecodable e)) := by
  cases hd : decode c with
  | error e => exact .inr ⟨e, by funext r; rw [runCode, hd]⟩
  | ok d =>
    obtain ⟨i, rfl, hi⟩ := unitStep_of_unitFetch hf hd
    exact .inl ⟨i, hi, funext fun _ => runCode_instr hd⟩

/-- A unit fetches its next step without reading the other unit. -/
theorem unitFetch_withUnitOf (h : u ≠ w) (s d : State) : unitFetch (withUnitOf w s d) u = unitFetch s u := by
  cases u with
  | enc => obtain rfl := eq_dec_of_ne h; rfl
  | dec => obtain rfl := eq_enc_of_ne h; rfl

/-- The turn of a unit neither reads nor writes the other unit. -/
theorem unitTurn_beside (h : u ≠ w) : Beside w (unitTurn u) := by
  intro s d
  rw [unitTurn, unitTurn, withUnitOf_unit s d h, unitFetch_withUnitOf h]
  split_ifs
  · cases hf : unitFetch s u with
    | none => exact Beside.underConfig (.fault _) s d
    | some c =>
      rcases runCode_of_unitFetch hf with ⟨i, hi, hc⟩ | ⟨e, hc⟩ <;> simp only [hc]
      · exact exec_beside i w (by rw [hi.unitOf]; exact mt Option.some.inj h) s d
      · exact Beside.underConfig (.refused _) s d
  · exact Beside.underConfig (.next (g := id) fun _ _ => rfl) s d

/-- The turn of a unit changes nothing but that unit. -/
theorem unitTurn_only (ht : unitTurn u s = .next t) : withUnitOf u s t = t := by
  unfold unitTurn at ht
  split_ifs at ht
  · split at ht
    · next c hf =>
      rcases runCode_of_unitFetch hf with ⟨i, hi, hc⟩ | ⟨e, hc⟩ <;> rw [hc] at ht
      · exact hi.only ht
      · exact absurd (underConfig_next.mp ht).2 nofun
    · exact absurd (underConfig_next.mp ht).2 nofun
  · obtain ⟨-, h⟩ := underConfig_next.mp ht
    cases h
    exact withUnitOf_self u s

/-- A turn of unit `u` is still possible after a change of unit `w` alone, and has the effect it has without it. -/
theorem unitTurn_after {a b : State} (h : u ≠ w) (ha : withUnitOf w s a = a) (hb : unitTurn u s = .next b) :
    unitTurn u a = .next (withUnitOf w b a) := by
  rw [← ha, unitTurn_beside h s a, hb, ha]
  rfl

/-- Settles O55: each turn changes its own unit only and does not read the other, so that either order leads to the state
with ENC as the turn of ENC leaves it and DEC as the turn of DEC leaves it. -/
theorem turnsOfTheUnitsCommute : Obligations.TurnsOfTheUnitsCommute := by
  intro s a b ha hb
  have hae : withUnitOf .enc s a = a := unitTurn_only ha
  have hbd : withUnitOf .dec s b = b := unitTurn_only hb
  have hmeet : withUnitOf .dec a b = withUnitOf .enc b a := by
    rw [← hae, ← hbd]
    rfl
  refine ⟨withUnitOf .enc b a, unitTurn_after (by decide) hae hb, ?_⟩
  rw [← hmeet]
  exact unitTurn_after (by decide) hbd ha

end Sys2Proof.Machine
end

section
/-! SUPPORT. The words of the formats (30_encoding.md R61 to R66): the operands that each word holds, that the
operands make the word again, and the shift-and-mask formulas as slices. -/

namespace Sys2Proof.Machine

/-! ## Slices of a concatenation -/

section Slices

variable {a b c d lo m n k : Nat}

theorem slice_append_left (x : BitVec a) (y : BitVec b) (h : m + b = lo) : slice lo n (x ++ y) = slice m n x := by
  subst h
  rw [slice, BitVec.extractLsb'_append_eq_of_le (Nat.le_add_left b m), Nat.add_sub_cancel, slice]

theorem slice_append_right (x : BitVec a) (y : BitVec b) (h : lo + n ≤ b) : slice lo n (x ++ y) = slice lo n y :=
  BitVec.extractLsb'_append_eq_of_add_le h

/-- Two slices that meet make one slice. -/
theorem slice_append_slice (w : BitVec a) : slice (lo + m) n w ++ slice lo m w = slice lo (n + m) w :=
  BitVec.extractLsb'_append_extractLsb'_eq_extractLsb' rfl

/-- A slice over the joint of a concatenation: the low bits of the left part, then the high bits of the right one. -/
theorem slice_append_across (x : BitVec a) (y : BitVec b) (h : lo + m = b) (hk : n + m = k) :
    slice lo k (x ++ y) = (slice 0 n x ++ slice lo m y).cast hk := by
  subst hk
  rw [← slice_append_slice, slice_append_left x y (m := 0) (by omega), slice_append_right x y h.le, BitVec.cast_eq]

theorem slices_append (x : BitVec a) (y : BitVec b) : slice b a (x ++ y) = x ∧ slice 0 b (x ++ y) = y :=
  ⟨BitVec.extractLsb'_append_eq_left, BitVec.extractLsb'_append_eq_right⟩

theorem slices_append₃ (x : BitVec a) (y : BitVec b) (z : BitVec c) :
    slice (b + c) a (x ++ y ++ z) = x ∧ slice c b (x ++ y ++ z) = y ∧ slice 0 c (x ++ y ++ z) = z := by
  obtain ⟨hx, hy⟩ := slices_append x y
  exact ⟨by rw [slice_append_left _ z rfl, hx], by rw [slice_append_left _ z c.zero_add, hy], (slices_append _ z).2⟩

theorem slices_append₄ (x : BitVec a) (y : BitVec b) (z : BitVec c) (u : BitVec d) :
    slice (b + c + d) a (x ++ y ++ z ++ u) = x ∧ slice (c + d) b (x ++ y ++ z ++ u) = y ∧
      slice d c (x ++ y ++ z ++ u) = z ∧ slice 0 d (x ++ y ++ z ++ u) = u := by
  obtain ⟨hx, hy, hz⟩ := slices_append₃ x y z
  exact ⟨by rw [slice_append_left _ u rfl, hx], by rw [slice_append_left _ u rfl, hy],
    by rw [slice_append_left _ u d.zero_add, hz], (slices_append _ u).2⟩

theorem append_slices (w : BitVec (a + b)) : slice b a w ++ slice 0 b w = w := BitVec.extractLsb'_append_extractLsb'

theorem append_slices₃ (w : BitVec (a + b + c)) : slice (c + b) a w ++ slice c b w ++ slice 0 c w = w := by
  rw [slice_append_slice, append_slices]

theorem append_slices₄ (w : BitVec (a + b + c + d)) :
    slice (d + c + b) a w ++ slice (d + c) b w ++ slice d c w ++ slice 0 d w = w := by
  rw [slice_append_slice, append_slices₃]

end Slices

/-! ## The words hold their operands (R61 to R64) -/

section Words

variable (b0 b1 b2 : Byte) (v0 v1 v2 v3 : Val)

theorem slices_wordG24 :
    slice 16 8 (wordG24 b0 b1 b2) = b0 ∧ slice 8 8 (wordG24 b0 b1 b2) = b1 ∧ slice 0 8 (wordG24 b0 b1 b2) = b2 :=
  slices_append₃ b0 b1 b2

theorem slices_wordG18 :
    slice 10 8 (wordG18 b0 b1) = b0 ∧ slice 2 8 (wordG18 b0 b1) = b1 ∧ slice 0 2 (wordG18 b0 b1) = 0#2 :=
  slices_append₃ b0 b1 0#2

theorem slices_wordG12 : slice 4 8 (wordG12 b0) = b0 ∧ slice 0 4 (wordG12 b0) = 0#4 :=
  slices_append b0 0#4

theorem slices_wordQ24 :
    slice 18 6 (wordQ24 v0 v1 v2 v3) = v0 ∧ slice 12 6 (wordQ24 v0 v1 v2 v3) = v1 ∧
      slice 6 6 (wordQ24 v0 v1 v2 v3) = v2 ∧ slice 0 6 (wordQ24 v0 v1 v2 v3) = v3 :=
  slices_append₄ v0 v1 v2 v3

theorem slices_wordQ18 :
    slice 12 6 (wordQ18 v0 v1 v2) = v0 ∧ slice 6 6 (wordQ18 v0 v1 v2) = v1 ∧ slice 0 6 (wordQ18 v0 v1 v2) = v2 :=
  slices_append₃ v0 v1 v2

theorem slices_wordQ12 : slice 6 6 (wordQ12 v0 v1) = v0 ∧ slice 0 6 (wordQ12 v0 v1) = v1 :=
  slices_append v0 v1

theorem wordG24_slices (w : BitVec 24) : wordG24 (slice 16 8 w) (slice 8 8 w) (slice 0 8 w) = w :=
  append_slices₃ (a := 8) (b := 8) (c := 8) w

theorem wordG18_slices {w : BitVec 18} (h : slice 0 2 w = 0#2) : wordG18 (slice 10 8 w) (slice 2 8 w) = w := by
  rw [wordG18, ← h]
  exact append_slices₃ (a := 8) (b := 8) (c := 2) w

theorem wordG12_slices {w : BitVec 12} (h : slice 0 4 w = 0#4) : wordG12 (slice 4 8 w) = w := by
  rw [wordG12, ← h]
  exact append_slices (a := 8) (b := 4) w

theorem wordQ24_slices (w : BitVec 24) : wordQ24 (slice 18 6 w) (slice 12 6 w) (slice 6 6 w) (slice 0 6 w) = w :=
  append_slices₄ (a := 6) (b := 6) (c := 6) (d := 6) w

theorem wordQ18_slices (w : BitVec 18) : wordQ18 (slice 12 6 w) (slice 6 6 w) (slice 0 6 w) = w :=
  append_slices₃ (a := 6) (b := 6) (c := 6) w

theorem wordQ12_slices (w : BitVec 12) : wordQ12 (slice 6 6 w) (slice 0 6 w) = w :=
  append_slices (a := 6) (b := 6) w

/-! ## The formulas and the slices across operands (R66) -/

theorem encV0_eq : encV0 b0 = slice 2 6 b0 := BitVec.setWidth_ushiftRight_eq_extractLsb

theorem encV1_eq : encV1 b0 b1 = (slice 0 2 b0 ++ slice 4 4 b1).cast rfl := by
  ext i hi
  rw [BitVec.getElem_cast, BitVec.getElem_append]
  interval_cases i <;> simp [encV1, slice]

theorem encV1Last_eq : encV1Last b0 = (slice 0 2 b0 ++ 0#4).cast rfl := by
  ext i hi
  rw [BitVec.getElem_cast, BitVec.getElem_append]
  interval_cases i <;> simp [encV1Last, slice]

theorem encV2_eq : encV2 b1 b2 = (slice 0 4 b1 ++ slice 6 2 b2).cast rfl := by
  ext i hi
  rw [BitVec.getElem_cast, BitVec.getElem_append]
  interval_cases i <;> simp [encV2, slice]

theorem encV2Last_eq : encV2Last b1 = (slice 0 4 b1 ++ 0#2).cast rfl := by
  ext i hi
  rw [BitVec.getElem_cast, BitVec.getElem_append]
  interval_cases i <;> simp [encV2Last, slice]

theorem encV3_eq : encV3 b2 = slice 0 6 b2 := by
  ext i hi
  interval_cases i <;> simp [encV3, slice]

theorem decB0_eq : decB0 v0 v1 = (slice 0 6 v0 ++ slice 4 2 v1).cast rfl := by
  ext i hi
  rw [BitVec.getElem_cast, BitVec.getElem_append]
  interval_cases i <;> simp [decB0, slice]

theorem decB1_eq : decB1 v1 v2 = (slice 0 4 v1 ++ slice 2 4 v2).cast rfl := by
  ext i hi
  rw [BitVec.getElem_cast, BitVec.getElem_append]
  interval_cases i <;> simp [decB1, slice]

theorem decB2_eq : decB2 v2 v3 = (slice 0 2 v2 ++ slice 0 6 v3).cast rfl := by
  ext i hi
  rw [BitVec.getElem_cast, BitVec.getElem_append]
  interval_cases i <;> simp [decB2, slice]

theorem slice_append_encV0 : slice 10 6 (b0 ++ b1) = encV0 b0 :=
  (slice_append_left b0 b1 (m := 2) rfl).trans (encV0_eq b0).symm

theorem slice_append_encV1 : slice 4 6 (b0 ++ b1) = encV1 b0 b1 :=
  (slice_append_across b0 b1 rfl rfl).trans (encV1_eq b0 b1).symm

/-- The output view of G24 (R61). -/
theorem values_wordG24 :
    slice 18 6 (wordG24 b0 b1 b2) = encV0 b0 ∧ slice 12 6 (wordG24 b0 b1 b2) = encV1 b0 b1 ∧
      slice 6 6 (wordG24 b0 b1 b2) = encV2 b1 b2 ∧ slice 0 6 (wordG24 b0 b1 b2) = encV3 b2 := by
  refine ⟨(slice_append_left (b0 ++ b1) b2 rfl).trans (slice_append_encV0 b0 b1),
    (slice_append_left (b0 ++ b1) b2 rfl).trans (slice_append_encV1 b0 b1), ?_, ?_⟩
  · rw [encV2_eq, ← slice_append_right b0 b1 (by decide)]
    exact slice_append_across (b0 ++ b1) b2 (lo := 6) (m := 2) (n := 4) rfl rfl
  · rw [encV3_eq]
    exact slice_append_right (b0 ++ b1) b2 (by decide)

/-- The output view of G18 (R62). -/
theorem values_wordG18 :
    slice 12 6 (wordG18 b0 b1) = encV0 b0 ∧ slice 6 6 (wordG18 b0 b1) = encV1 b0 b1 ∧
      slice 0 6 (wordG18 b0 b1) = encV2Last b1 := by
  refine ⟨(slice_append_left (b0 ++ b1) 0#2 rfl).trans (slice_append_encV0 b0 b1),
    (slice_append_left (b0 ++ b1) 0#2 rfl).trans (slice_append_encV1 b0 b1), ?_⟩
  rw [encV2Last_eq, ← slice_append_right b0 b1 (by decide)]
  exact slice_append_across (b0 ++ b1) 0#2 (lo := 0) (m := 2) (n := 4) rfl rfl

/-- The output view of G12 (R63). -/
theorem values_wordG12 : slice 6 6 (wordG12 b0) = encV0 b0 ∧ slice 0 6 (wordG12 b0) = encV1Last b0 :=
  ⟨(slice_append_left b0 0#4 rfl).trans (encV0_eq b0).symm,
    (slice_append_across b0 0#4 (lo := 0) (m := 4) (n := 2) rfl rfl).trans (encV1Last_eq b0).symm⟩

/-- The output view of Q12 (R64). -/
theorem bytes_wordQ12 : slice 4 8 (wordQ12 v0 v1) = decB0 v0 v1 :=
  (slice_append_across v0 v1 rfl rfl).trans (decB0_eq v0 v1).symm

/-- The output view of Q18 (R64). -/
theorem bytes_wordQ18 : slice 10 8 (wordQ18 v0 v1 v2) = decB0 v0 v1 ∧ slice 2 8 (wordQ18 v0 v1 v2) = decB1 v1 v2 := by
  refine ⟨(slice_append_left (v0 ++ v1) v2 rfl).trans (bytes_wordQ12 v0 v1), ?_⟩
  rw [decB1_eq, ← slice_append_right v0 v1 (by decide)]
  exact slice_append_across (v0 ++ v1) v2 (lo := 2) (m := 4) (n := 4) rfl rfl

/-- The output view of Q24 (R64). -/
theorem bytes_wordQ24 :
    slice 16 8 (wordQ24 v0 v1 v2 v3) = decB0 v0 v1 ∧ slice 8 8 (wordQ24 v0 v1 v2 v3) = decB1 v1 v2 ∧
      slice 0 8 (wordQ24 v0 v1 v2 v3) = decB2 v2 v3 := by
  obtain ⟨h0, h1⟩ := bytes_wordQ18 v0 v1 v2
  refine ⟨(slice_append_left (v0 ++ v1 ++ v2) v3 rfl).trans h0, (slice_append_left (v0 ++ v1 ++ v2) v3 rfl).trans h1, ?_⟩
  rw [decB2_eq, ← slice_append_right (v0 ++ v1) v2 (by decide)]
  exact slice_append_across (v0 ++ v1 ++ v2) v3 (lo := 0) (m := 6) (n := 2) rfl rfl

end Words

/-- What is shifted left by `k` has no bit in common with what is below `2 ^ k`. -/
theorem shiftLeft_and_eq_zero {n k : Nat} {x y : BitVec n} (h : y.toNat < 2 ^ k) : x <<< k &&& y = 0#n := by
  ext i hi
  rcases Nat.lt_or_ge i k with hik | hik
  · simp [hik]
  · have hy : y[i] = false := Nat.testBit_lt_two_pow (h.trans_le (Nat.pow_le_pow_right (by decide) hik))
    simp [hy]

/-- A value shifted right, in eight bits. -/
theorem toNat_setWidth_ushiftRight_lt (v : Val) {k : Nat} (h : k ≤ 6) : (v.setWidth 8 >>> k).toNat < 2 ^ (6 - k) := by
  rw [← BitVec.setWidth_ushiftRight (by decide), BitVec.toNat_setWidth_of_le (by decide)]
  exact BitVec.toNat_ushiftRight_lt v k h

/-- Settles O7: each word's slices across its operands are the formulas, and the left operand of each `|` is shifted past the
right one. -/
theorem formulasAreSlices : Obligations.FormulasAreSlices := by
  refine ⟨fun b0 b1 b2 => ?_, fun v0 v1 v2 v3 => ?_⟩
  · obtain ⟨h0, h1, h2, h3⟩ := values_wordG24 b0 b1 b2
    obtain ⟨k0, k1, k2⟩ := values_wordG18 b0 b1
    obtain ⟨l0, l1⟩ := values_wordG12 b0
    refine ⟨h0.symm, h1.symm, h2.symm, h3.symm, k0.symm, k1.symm, k2.symm, l0.symm, l1.symm, ?_, ?_⟩
    · exact shiftLeft_and_eq_zero (BitVec.toNat_ushiftRight_lt b1 4 (by decide))
    · exact shiftLeft_and_eq_zero (BitVec.toNat_ushiftRight_lt b2 6 (by decide))
  · obtain ⟨h0, h1, h2⟩ := bytes_wordQ24 v0 v1 v2 v3
    obtain ⟨k0, k1⟩ := bytes_wordQ18 v0 v1 v2
    refine ⟨h0.symm, h1.symm, h2.symm, k0.symm, k1.symm, (bytes_wordQ12 v0 v1).symm, ?_, ?_, ?_⟩
    · exact shiftLeft_and_eq_zero (toNat_setWidth_ushiftRight_lt v1 (k := 4) (by decide))
    · exact shiftLeft_and_eq_zero (toNat_setWidth_ushiftRight_lt v2 (k := 2) (by decide))
    · exact shiftLeft_and_eq_zero (toNat_setWidth_ushiftRight_lt v3 (k := 0) (by decide))

end Sys2Proof.Machine
end

section
/-! SUPPORT. The decoder and the encoder are inverse to each other (30_encoding.md R61 to R65; 43_host_interface.md R150). -/

namespace Sys2Proof

open Machine

/-! ## Symbol codes (R65) -/

/-- The rows SYM.0 to SYM.63 are listed with the codes of the classic alphabet, in the same order. -/
theorem symRows_map_encode : symRows.map encode = classicCodes.map .sym8 := rfl

theorem encode_symRows_getD {v : Nat} (h : v < classicCodes.length) :
    encode (symRows.getD v .symPad) = .sym8 classicCodes[v] := by
  have hv : v < symRows.length := h
  have hrow := List.getElem_of_eq symRows_map_encode (by simpa using hv)
  rwa [List.getElem_map, List.getElem_map, ← List.getD_eq_getElem _ .symPad hv] at hrow

/-- The row of a code is the row that has this code: SYM.PAD, a row of the table, or the default row. -/
theorem encode_decodeSym8 (w : Symbol) : encode (decodeSym8 w) = .sym8 w := by
  unfold decodeSym8
  split_ifs with hp
  · rw [hp]
    rfl
  · split
    · next v hv =>
      obtain ⟨hlt, hw, -⟩ := List.findIdx?_eq_some_iff_getElem.mp hv
      rw [encode_symRows_getD hlt, eq_of_beq hw]
    · rfl

/-- A code outside the classic alphabet has the default row. -/
theorem decodeSym8_of_unknown {w : Symbol} (hi : classicIndex w = none) (hp : w ≠ classicPad) :
    decodeSym8 w = .symUnk w := by
  rw [decodeSym8, if_neg hp, hi]

/-! ## Host accesses (43_host_interface.md R150) -/

theorem decode_write_hStart (u : UnitId) (d : BitVec 8) :
    decode (.write u (.reg 0) d.toNat) = .ok (.instr (.hStart u d)) := by
  rw [decode, decodeWrite, if_pos d.isLt, BitVec.ofNat_toNat, BitVec.setWidth_eq]

theorem decode_write_hWrIbuf (u : UnitId) (j : Nat) (e : BitVec 8) :
    decode (.write u (.ibuf j) e.toNat) = .ok (.instr (.hWrIbuf u j e)) := by
  rw [decode, decodeWrite, if_pos e.isLt, BitVec.ofNat_toNat, BitVec.setWidth_eq]

theorem encode_of_decodeRead {u : UnitId} {p : Place} {i : Instr} (h : decodeRead u p = .ok (.instr i)) :
    encode i = .read u p := by
  unfold decodeRead at h
  split at h <;> cases h <;> rfl

theorem encode_of_decodeWrite {u : UnitId} {p : Place} {d : Nat} {i : Instr}
    (h : decodeWrite u p d = .ok (.instr i)) : encode i = .write u p d := by
  unfold decodeWrite at h
  split at h
  case h_1 | h_6 =>
    split_ifs at h with hd
    cases h
    rw [encode, BitVec.toNat_ofNat, Nat.mod_eq_of_lt hd]
  case h_3 =>
    cases h
    rfl
  all_goals cases h

/-! ## Groups (R61 to R64) -/

theorem decode_wordG24 (b0 b1 b2 : Byte) : decode (.g24 (wordG24 b0 b1 b2)) = .ok (.instr (.enc3 b0 b1 b2)) := by
  obtain ⟨h0, h1, h2⟩ := slices_wordG24 b0 b1 b2
  rw [decode, h0, h1, h2]

theorem decode_wordG18 (b0 b1 : Byte) : decode (.g18 (wordG18 b0 b1)) = .ok (.instr (.enc2 b0 b1)) := by
  obtain ⟨h0, h1, htail⟩ := slices_wordG18 b0 b1
  rw [decode, if_pos htail, h0, h1]

theorem decode_wordG12 (b0 : Byte) : decode (.g12 (wordG12 b0)) = .ok (.instr (.enc1 b0)) := by
  obtain ⟨h0, htail⟩ := slices_wordG12 b0
  rw [decode, if_pos htail, h0]

theorem decode_wordQ24 (v0 v1 v2 v3 : Val) :
    decode (.q24 (wordQ24 v0 v1 v2 v3)) = .ok (.instr (.dec4 v0 v1 v2 v3)) := by
  obtain ⟨h0, h1, h2, h3⟩ := slices_wordQ24 v0 v1 v2 v3
  rw [decode, h0, h1, h2, h3]

theorem decode_wordQ18 (v0 v1 v2 : Val) : decode (.q18 (wordQ18 v0 v1 v2)) = .ok (.instr (.dec3 v0 v1 v2)) := by
  obtain ⟨h0, h1, h2⟩ := slices_wordQ18 v0 v1 v2
  rw [decode, h0, h1, h2]

theorem decode_wordQ12 (v0 v1 : Val) : decode (.q12 (wordQ12 v0 v1)) = .ok (.instr (.dec2 v0 v1)) := by
  obtain ⟨h0, h1⟩ := slices_wordQ12 v0 v1
  rw [decode, h0, h1]

/-! ## The two directions -/

/-- Settles O48: a group word holds its operands, a written byte is below 256, and the two default rows are well-formed
exactly when no other row takes their code; every other code decodes by its row alone. -/
theorem decodingAnEncodedOperation : Obligations.DecodingAnEncodedOperation := by
  intro c i hw
  cases i
  case enc3 => exact decode_wordG24 ..
  case enc2 => exact decode_wordG18 ..
  case enc1 => exact decode_wordG12 ..
  case dec4 => exact decode_wordQ24 ..
  case dec3 => exact decode_wordQ18 ..
  case dec2 => exact decode_wordQ12 ..
  case decGrperr k0 k1 k2 k3 last => exact if_pos (of_decide_eq_true hw)
  case hWrIbuf u j e => exact decode_write_hWrIbuf u j e
  case hStart u d => exact decode_write_hStart u d
  case symUnk w =>
    obtain ⟨hi, hp⟩ := of_decide_eq_true hw
    rw [encode, decode, decodeSym8_of_unknown hi hp]
  all_goals rfl

/-- Settles O49: the slices that a group word is decoded into make the word again, and every other decoder branch keeps what
its code carries. -/
theorem encodingADecodedOperation : Obligations.EncodingADecodedOperation := by
  intro c i h hc
  cases c with
  | read u p => exact encode_of_decodeRead h
  | write u p d => exact encode_of_decodeWrite h
  | ctrl8 u w => exact absurd rfl (hc u w)
  | sym8 w => cases h; exact encode_decodeSym8 w
  | g24 w => cases h; exact congrArg _ (wordG24_slices w)
  | g18 w =>
    rw [decode] at h
    split_ifs at h with h0
    cases h
    exact congrArg _ (wordG18_slices h0)
  | g12 w =>
    rw [decode] at h
    split_ifs at h with h0
    cases h
    exact congrArg _ (wordG12_slices h0)
  | q24 w => cases h; exact congrArg _ (wordQ24_slices w)
  | q18 w => cases h; exact congrArg _ (wordQ18_slices w)
  | q12 w => cases h; exact congrArg _ (wordQ12_slices w)
  | classes k0 k1 k2 k3 last =>
    rw [decode] at h
    split_ifs at h
    cases h
    rfl
  | finish u => cases u <;> cases h <;> rfl
  | lenfail | lookupSymof | lookupClass | lookupPad | scriptEncode | scriptDecode => cases h; rfl

/-- Settles O47, by evaluating the decoder on each word. -/
theorem wordsDecodeToTheirRows : Obligations.WordsDecodeToTheirRows :=
  ⟨rfl, rfl, rfl, rfl, rfl, rfl, rfl⟩

end Sys2Proof
end

section
/-! SUPPORT. Which group step a class pattern selects (30_encoding.md R70). -/

namespace Sys2Proof.Machine

variable {k k0 k1 k2 k3 : SymClass} {last : Bool}

theorem isPad_iff : isPad k = true ↔ k = .padc := by cases k <;> simp [isPad]

theorem isVal_iff : (∃ v, k = .val v) ↔ isPad k = false ∧ isUnk k = false := by cases k <;> simp [isPad, isUnk]

theorem anyPad_eq_false_iff :
    anyPad k0 k1 k2 k3 = false ↔ isPad k0 = false ∧ isPad k1 = false ∧ isPad k2 = false ∧ isPad k3 = false := by
  simp [anyPad, and_assoc]

theorem hasUnk_eq_false_iff :
    hasUnk k0 k1 k2 k3 = false ↔ isUnk k0 = false ∧ isUnk k1 = false ∧ isUnk k2 = false ∧ isUnk k3 = false := by
  simp [hasUnk, and_assoc]

/-- A pattern without padding that does not select DEC.GRPERR: four values. -/
theorem shape_of_unpadded (hp : anyPad k0 k1 k2 k3 = false)
    (h : (padLegal k0 k1 k2 k3 last && !hasUnk k0 k1 k2 k3) = true) :
    (∃ v, k0 = .val v) ∧ (∃ v, k1 = .val v) ∧ (∃ v, k2 = .val v) ∧ ∃ v, k3 = .val v := by
  obtain ⟨-, hunk⟩ := Bool.and_eq_true_iff.mp h
  obtain ⟨u0, u1, u2, u3⟩ := hasUnk_eq_false_iff.mp ((Bool.not_eq_true' _).mp hunk)
  obtain ⟨h0, h1, h2, h3⟩ := anyPad_eq_false_iff.mp hp
  exact ⟨isVal_iff.mpr ⟨h0, u0⟩, isVal_iff.mpr ⟨h1, u1⟩, isVal_iff.mpr ⟨h2, u2⟩, isVal_iff.mpr ⟨h3, u3⟩⟩

/-- A pattern with padding that does not select DEC.GRPERR: two values first and padding last, in the last group. -/
theorem shape_of_padded (hp : anyPad k0 k1 k2 k3 = true)
    (h : (padLegal k0 k1 k2 k3 last && !hasUnk k0 k1 k2 k3) = true) :
    last = true ∧ (∃ v, k0 = .val v) ∧ (∃ v, k1 = .val v) ∧ isUnk k2 = false ∧ k3 = .padc := by
  obtain ⟨hlegal, hunk⟩ := Bool.and_eq_true_iff.mp h
  obtain ⟨u0, u1, u2, -⟩ := hasUnk_eq_false_iff.mp ((Bool.not_eq_true' _).mp hunk)
  obtain ⟨hlast, h0, h1, h3⟩ : last = true ∧ isPad k0 = false ∧ isPad k1 = false ∧ isPad k3 = true := by
    simpa [padLegal, hp, and_assoc] using hlegal
  exact ⟨hlast, isVal_iff.mpr ⟨h0, u0⟩, isVal_iff.mpr ⟨h1, u1⟩, u2, isPad_iff.mp h3⟩

theorem selectGroup_dec4_iff :
    selectGroup k0 k1 k2 k3 last = .dec4 ↔
      (∃ v, k0 = .val v) ∧ (∃ v, k1 = .val v) ∧ (∃ v, k2 = .val v) ∧ ∃ v, k3 = .val v := by
  constructor
  · intro h
    unfold selectGroup at h
    split_ifs at h with hok hp
    exact shape_of_unpadded (by simpa using hp) hok
  · rintro ⟨⟨v0, rfl⟩, ⟨v1, rfl⟩, ⟨v2, rfl⟩, ⟨v3, rfl⟩⟩
    rfl

theorem selectGroup_dec3_iff :
    selectGroup k0 k1 k2 k3 last = .dec3 ↔
      last = true ∧ (∃ v, k0 = .val v) ∧ (∃ v, k1 = .val v) ∧ (∃ v, k2 = .val v) ∧ k3 = .padc := by
  constructor
  · intro h
    unfold selectGroup at h
    split_ifs at h with hok hp h2
    obtain ⟨hlast, h0, h1, u2, h3⟩ := shape_of_padded (by simpa using hp) hok
    exact ⟨hlast, h0, h1, isVal_iff.mpr ⟨by simpa using h2, u2⟩, h3⟩
  · rintro ⟨rfl, ⟨v0, rfl⟩, ⟨v1, rfl⟩, ⟨v2, rfl⟩, rfl⟩
    rfl

theorem selectGroup_dec2_iff :
    selectGroup k0 k1 k2 k3 last = .dec2 ↔
      last = true ∧ (∃ v, k0 = .val v) ∧ (∃ v, k1 = .val v) ∧ k2 = .padc ∧ k3 = .padc := by
  constructor
  · intro h
    unfold selectGroup at h
    split_ifs at h with hok hp h2
    obtain ⟨hlast, h0, h1, -, h3⟩ := shape_of_padded (by simpa using hp) hok
    exact ⟨hlast, h0, h1, isPad_iff.mp h2, h3⟩
  · rintro ⟨rfl, ⟨v0, rfl⟩, ⟨v1, rfl⟩, rfl, rfl⟩
    rfl

/-- The patterns that decode to DEC.GRPERR are the ones that select it: the three accepted shapes have words of their own. -/
theorem selectGroup_grperr_iff :
    selectGroup k0 k1 k2 k3 last = .grperr ↔
      decode (groupCode k0 k1 k2 k3 last) = .ok (.instr (.decGrperr k0 k1 k2 k3 last)) := by
  unfold groupCode
  split
  case h_4 =>
    rw [decode]
    split_ifs with h <;> simp [h]
  all_goals exact iff_of_false nofun nofun

/-- Settles O25: each shape is what the branch of `selectGroup` that answers it leaves possible. -/
theorem patternSelectsTheGroupStep : Obligations.PatternSelectsTheGroupStep := fun _ _ _ _ _ =>
  ⟨selectGroup_dec4_iff, selectGroup_dec3_iff, selectGroup_dec2_iff, selectGroup_grperr_iff⟩

end Sys2Proof.Machine
end

section
/-! SUPPORT. The dropped bits of a last group (30_encoding.md R72): of a string `decode` sees the places of its padding
symbols, whether a symbol is unknown, and the bytes of its groups; the dropped bits change none of these. -/

namespace Sys2Proof.Machine

variable {c : Config} {x : List Symbol} {vs ws : List Val} {p : Nat}

/-! ## The classes of the alphabet's symbols (40_alphabet.md R83, R87) -/

theorem symOf_ne_pad (hc : c.WF) (v : Val) : symOf c v ≠ c.pad :=
  have ⟨_, hpad, _⟩ := (wf_iff_distinct c).mp hc
  (hpad v).symm

theorem classOf_pad : classOf c c.pad = .padc := if_pos rfl

theorem classOf_symOf (hc : c.WF) (v : Val) : classOf c (symOf c v) = .val v := by
  have hnodup : c.alpha.toList.Nodup := (List.nodup_cons.mp hc.1).2
  have hv : v.toNat < c.alpha.toList.length := by simpa using v.isLt
  have hsym : symOf c v = c.alpha.toList[v.toNat] := by simp [symOf]
  have hfind : c.alpha.toList.findIdx? (· == symOf c v) = some v.toNat := by
    rw [List.findIdx?_eq_some_iff_getElem, hsym]
    exact ⟨hv, beq_self_eq_true _, fun j hj he => hj.ne (hnodup.getElem_inj_iff.mp (eq_of_beq he))⟩
  rw [classOf, if_neg (symOf_ne_pad hc v), hfind]
  simp

/-! ## What `decode` sees of a string (42_decoder.md R110 to R113) -/

theorem codecDecode_eq_ok_iff {r : List Byte} :
    codecDecode c x = .ok r ↔
      lengthMalformed x = false ∧ paddingMisplaced c x = false ∧ symbolUnknown c x = false ∧ decodeGroups c x = r := by
  unfold codecDecode
  cases lengthMalformed x <;> cases paddingMisplaced c x <;> cases symbolUnknown c x <;> simp

/-- The second check sees of a string only where its padding symbols are. -/
theorem paddingMisplaced_congr {y : List Symbol} (h : x.map (· == c.pad) = y.map (· == c.pad)) :
    paddingMisplaced c x = paddingMisplaced c y := by
  have hiff : ∀ (z : List Symbol) (i : Nat), z[i]? = some c.pad ↔ (z.map (· == c.pad))[i]? = some true := by simp
  have hlen : x.length = y.length := by simpa using congrArg List.length h
  simp only [paddingMisplaced, hiff, h, hlen]

/-- Padding is in its place when it is a suffix of at most two symbols (R112). -/
theorem paddingMisplaced_append_replicate (hx : c.pad ∉ x) (hp : p ≤ 2) :
    paddingMisplaced c (x ++ List.replicate p c.pad) = false := by
  have hpad : ∀ i, (x ++ List.replicate p c.pad)[i]? = some c.pad ↔ x.length ≤ i ∧ i < x.length + p := by
    intro i
    rcases Nat.lt_or_ge i x.length with hi | hi
    · rw [List.getElem?_append_left hi]
      exact iff_of_false (fun h => hx (List.mem_of_getElem? h)) (by omega)
    · rw [List.getElem?_append_right hi, List.getElem?_replicate, Option.ite_none_right_eq_some, and_iff_left rfl]
      omega
  simp only [paddingMisplaced, hpad, List.any_eq_false, List.mem_range, List.length_append, List.length_replicate,
    decide_eq_true_eq]
  omega

theorem decodeGroups_append (g : List Symbol) (h : x.length % 4 = 0) :
    decodeGroups c (x ++ g) = decodeGroups c x ++ decodeGroups c g := by
  induction x using decodeGroups.induct with
  | case1 c0 c1 c2 c3 x ih =>
    have hx : x.length % 4 = 0 := by simpa [Nat.add_assoc] using h
    simp only [List.cons_append, decodeGroups, ih hx, List.append_assoc]
  | case2 x hx =>
    match x with
    | [] => rfl
    | [_] | [_, _] | [_, _, _] => simp at h
    | c0 :: c1 :: c2 :: c3 :: x => exact absurd rfl (hx c0 c1 c2 c3 x)

/-! ## A string that ends in values and padding -/

/-- The string that ends in the symbols of `vs` and `p` padding symbols. -/
def withEnd (c : Config) (x : List Symbol) (vs : List Val) (p : Nat) : List Symbol :=
  x ++ vs.map (symOf c) ++ List.replicate p c.pad

theorem length_withEnd : (withEnd c x vs p).length = x.length + (vs.length + p) := by simp [withEnd]

theorem decodeGroups_withEnd (hx : x.length % 4 = 0) :
    decodeGroups c (withEnd c x vs p) = decodeGroups c x ++ decodeGroups c (withEnd c [] vs p) := by
  rw [withEnd, List.append_assoc, decodeGroups_append _ hx]
  rfl

theorem symbolUnknown_withEnd (hc : c.WF) : symbolUnknown c (withEnd c x vs p) = symbolUnknown c x := by
  simp [withEnd, symbolUnknown, classOf_symOf hc, classOf_pad]

theorem paddingMisplaced_withEnd (hc : c.WF) (hx : c.pad ∉ x) (hp : p ≤ 2) :
    paddingMisplaced c (withEnd c x vs p) = false :=
  paddingMisplaced_append_replicate (by simp [hx, symOf_ne_pad hc]) hp

/-- Of the values at its end `decode` sees the number and the bytes. -/
theorem codecDecode_withEnd_congr (hc : c.WF) (hx : x.length % 4 = 0) (hlen : vs.length = ws.length)
    (hbytes : decodeGroups c (withEnd c [] vs p) = decodeGroups c (withEnd c [] ws p)) :
    codecDecode c (withEnd c x vs p) = codecDecode c (withEnd c x ws p) := by
  have hpad : (withEnd c x vs p).map (· == c.pad) = (withEnd c x ws p).map (· == c.pad) := by
    have hsym : ∀ v, (symOf c v == c.pad) = false := fun v => beq_false_of_ne (symOf_ne_pad hc v)
    simp [withEnd, Function.comp_def, hsym, hlen]
  simp only [codecDecode, lengthMalformed, length_withEnd, hlen, paddingMisplaced_congr hpad, symbolUnknown_withEnd hc,
    decodeGroups_withEnd hx, hbytes]

/-- An accepted string without padding may be followed by values and at most two padding symbols. -/
theorem codecDecode_withEnd_of_ok {y : List Byte} (hc : c.WF) (hy : codecDecode c x = .ok y) (hx : c.pad ∉ x) (hp : p ≤ 2)
    (hlen : (vs.length + p) % 4 = 0) :
    codecDecode c (withEnd c x vs p) = .ok (y ++ decodeGroups c (withEnd c [] vs p)) := by
  obtain ⟨hmal, -, hunk, hbytes⟩ := codecDecode_eq_ok_iff.mp hy
  have hx4 : x.length % 4 = 0 := by simpa [lengthMalformed] using hmal
  refine codecDecode_eq_ok_iff.mpr ⟨?_, paddingMisplaced_withEnd hc hx hp, ?_, ?_⟩
  · rw [lengthMalformed, length_withEnd, decide_eq_false_iff_not]
    omega
  · rw [symbolUnknown_withEnd hc, hunk]
  · rw [decodeGroups_withEnd hx4, hbytes]

/-! ## The two last groups with dropped bits -/

/-- The byte of DEC2 reads the two high bits of `v1` only (R119). -/
theorem decB0_congr (v0 : Val) {v1 w1 : Val} (h : v1 >>> 4 = w1 >>> 4) : decB0 v0 v1 = decB0 v0 w1 := by
  simp only [decB0, ← BitVec.setWidth_ushiftRight (show 6 ≤ 8 by decide), h]

/-- The second byte of DEC3 reads the four high bits of `v2` only (R118). -/
theorem decB1_congr (v1 : Val) {v2 w2 : Val} (h : v2 >>> 2 = w2 >>> 2) : decB1 v1 v2 = decB1 v1 w2 := by
  simp only [decB1, ← BitVec.setWidth_ushiftRight (show 6 ≤ 8 by decide), h]

theorem decodeGroups_onePad (hc : c.WF) (v0 v1 v2 : Val) :
    decodeGroups c (withEnd c [] [v0, v1, v2] 1) = [decB0 v0 v1, decB1 v1 v2] := by
  simp [withEnd, decodeGroups, groupBytes, classOf_symOf hc, classOf_pad]

theorem decodeGroups_twoPads (hc : c.WF) (v0 v1 : Val) :
    decodeGroups c (withEnd c [] [v0, v1] 2) = [decB0 v0 v1] := by
  simp [withEnd, List.replicate, decodeGroups, groupBytes, classOf_symOf hc, classOf_pad]

theorem withEnd_onePad (x : List Symbol) (v0 v1 v2 : Val) :
    withEnd c x [v0, v1, v2] 1 = x ++ [symOf c v0, symOf c v1, symOf c v2, c.pad] := List.append_assoc ..

theorem withEnd_twoPads (x : List Symbol) (v0 v1 : Val) :
    withEnd c x [v0, v1] 2 = x ++ [symOf c v0, symOf c v1, c.pad, c.pad] := List.append_assoc ..

/-- Settles O29: the two groups have the same padding, no unknown symbol and, by `decB1_congr` and `decB0_congr`, the same
bytes; the example is evaluated. -/
theorem droppedBitsAreIgnored : Obligations.DroppedBitsAreIgnored := by
  refine ⟨fun c x v0 v1 v2 w2 hc hx hv => ?_, fun c x v0 v1 w1 hc hx hv => ?_, rfl, rfl, rfl⟩
  · simp only [← withEnd_onePad, ← decodeGroups_onePad hc]
    refine ⟨codecDecode_withEnd_congr hc hx rfl ?_,
      fun y hy hpad => codecDecode_withEnd_of_ok hc hy hpad (by decide) (by simp)⟩
    rw [decodeGroups_onePad hc, decodeGroups_onePad hc, decB1_congr v1 hv]
  · simp only [← withEnd_twoPads, ← decodeGroups_twoPads hc]
    refine ⟨codecDecode_withEnd_congr hc hx rfl ?_,
      fun y hy hpad => codecDecode_withEnd_of_ok hc hy hpad (by decide) (by simp)⟩
    rw [decodeGroups_twoPads hc, decodeGroups_twoPads hc, decB0_congr v0 hv]

end Sys2Proof.Machine
end

section
/-! SUPPORT. The alphabet and its lookups (40_alphabet.md R80 to R87): what a class says of a code, how many codes have each
class, and the classic alphabet range by range. -/

namespace Sys2Proof.Machine

variable {c : Config} {x : Symbol} {v : Val} {s : State}

/-! ## What a class says of a code (R83, R87) -/

/-- The entries of the alphabet are the codes that `SYMOF` gives. -/
theorem mem_alpha_iff : x ∈ c.alpha.toList ↔ ∃ v : Val, x = symOf c v := by
  constructor
  · intro h
    obtain ⟨n, hn, rfl⟩ := List.getElem_of_mem h
    exact ⟨BitVec.ofNatLT n (by simpa using hn), by simp [symOf]⟩
  · rintro ⟨v, rfl⟩
    simp [symOf]

/-- What `CLASS` compares a code with, in the order of R83: the padding symbol, the 64 entries, nothing. -/
theorem classOf_cases (c : Config) (x : Symbol) :
    (x = c.pad ∧ classOf c x = .padc) ∨ (∃ v, x = symOf c v ∧ classOf c x = .val v) ∨
      (x ∉ c.pad :: c.alpha.toList ∧ classOf c x = .unk) := by
  unfold classOf
  split_ifs with hp
  · exact .inl ⟨hp, rfl⟩
  · split
    · next n hn =>
      obtain ⟨hlt, hx, -⟩ := List.findIdx?_eq_some_iff_getElem.mp hn
      have hlt : n < 64 := by simpa using hlt
      exact .inr (.inl ⟨BitVec.ofNat 6 n, by simpa [symOf, Nat.mod_eq_of_lt hlt] using (eq_of_beq hx).symm, rfl⟩)
    · next hn =>
      have hx : x ∉ c.alpha.toList := fun h => by simpa using List.findIdx?_eq_none_iff.mp hn x h
      exact .inr (.inr ⟨List.not_mem_cons_of_ne_of_not_mem hp hx, rfl⟩)

theorem classOf_eq_padc_iff : classOf c x = .padc ↔ x = c.pad := by
  refine ⟨fun h => ?_, fun h => h ▸ classOf_pad⟩
  obtain ⟨hx, -⟩ | ⟨v, -, hk⟩ | ⟨-, hk⟩ := classOf_cases c x
  · exact hx
  · cases h.symm.trans hk
  · cases h.symm.trans hk

/-- `CLASS(s) = VAL(v)` implies `SYMOF(v) = s` (R87). -/
theorem symOf_of_classOf (h : classOf c x = .val v) : symOf c v = x := by
  obtain ⟨-, hk⟩ | ⟨w, hx, hk⟩ | ⟨-, hk⟩ := classOf_cases c x
  · cases h.symm.trans hk
  · cases h.symm.trans hk
    exact hx.symm
  · cases h.symm.trans hk

theorem classOf_eq_val_iff (hc : c.WF) : classOf c x = .val v ↔ x = symOf c v :=
  ⟨fun h => (symOf_of_classOf h).symm, fun h => h ▸ classOf_symOf hc v⟩

theorem exists_classOf_eq_val_iff (hc : c.WF) : (∃ v, classOf c x = .val v) ↔ x ∈ c.alpha.toList := by
  simp only [classOf_eq_val_iff hc, mem_alpha_iff]

theorem classOf_eq_unk_iff (hc : c.WF) : classOf c x = .unk ↔ x ∉ c.pad :: c.alpha.toList := by
  rw [List.mem_cons, ← classOf_eq_padc_iff, ← exists_classOf_eq_val_iff hc]
  cases classOf c x <;> simp

theorem isUnk_iff {k : SymClass} : isUnk k = true ↔ k = .unk := by cases k <;> simp [isUnk]

/-- `CLASS` reads of a configuration the alphabet and the padding symbol alone. -/
theorem classOf_congr {d : Config} (ha : c.alpha = d.alpha) (hp : c.pad = d.pad) (x : Symbol) :
    classOf c x = classOf d x := by
  rw [classOf, ha, hp, classOf]

/-! ## The lookups as operations (R82 to R84) -/

theorem answerWith_of_wf (a : Answer) (hw : s.cfg.WF) : answerWith a s = .next (s.answering a) := underConfig_of_wf hw

theorem answerClassOf_of_wf (x : Symbol) (hw : s.cfg.WF) :
    answerClassOf x s = .next (s.answering (.cls (classOf s.cfg x))) := answerWith_of_wf _ hw

/-- Settles O2: an entry is not the padding symbol and no earlier entry, and a class `VAL(v)` comes from entry `v` alone. -/
theorem lookupsAreInverse : Obligations.LookupsAreInverse :=
  fun _ hc => ⟨classOf_symOf hc, fun _ _ => symOf_of_classOf⟩

/-- Settles O3, by the meanings of the two lookups and R81 (c). -/
theorem symofAndPadsymReadTheAlphabet : Obligations.SymofAndPadsymReadTheAlphabet :=
  fun _ hw => ⟨fun v => ⟨answerWith_of_wf _ hw, symOf_ne_pad hw v⟩, answerWith_of_wf _ hw⟩

/-- Settles O5: the row of each code calls the lookup of that code, and no other operation has a code of format SYM8. -/
theorem symbolRowsGiveTheirClass : Obligations.SymbolRowsGiveTheirClass := by
  intro i x s h hw
  cases i <;> cases h <;> exact answerClassOf_of_wf _ hw

/-! ## How many codes have each class (R83) -/

/-- A property that holds of the symbols of a list without repetition, and of no other, holds of as many of the 256 codes. -/
theorem length_filter_codes {l : List Symbol} (hl : l.Nodup) {p : Symbol → Bool} (hp : ∀ x, p x = true ↔ x ∈ l) :
    ((List.range 256).filter fun n => p (BitVec.ofNat 8 n)).length = l.length := by
  have hperm : ((List.range 256).filter fun n => p (BitVec.ofNat 8 n)).Perm (l.map BitVec.toNat) := by
    refine (List.perm_ext_iff_of_nodup (List.nodup_range.filter _) (hl.map fun _ _ => BitVec.eq_of_toNat_eq)).mpr ?_
    intro n
    simp only [List.mem_filter, List.mem_range, List.mem_map, hp]
    constructor
    · rintro ⟨hn, hmem⟩
      exact ⟨_, hmem, by simp [Nat.mod_eq_of_lt hn]⟩
    · rintro ⟨x, hx, rfl⟩
      exact ⟨x.isLt, by simpa using hx⟩
  rw [hperm.length_eq, List.length_map]

theorem length_valueCodes (hc : c.WF) :
    ((List.range 256).filter fun n =>
      !isPad (classOf c (BitVec.ofNat 8 n)) && !isUnk (classOf c (BitVec.ofNat 8 n))).length = 64 := by
  have h := length_filter_codes (List.nodup_cons.mp hc.1).2 (p := fun x => !isPad (classOf c x) && !isUnk (classOf c x))
    fun x => by simp [← exists_classOf_eq_val_iff hc, isVal_iff]
  simpa using h

theorem length_paddingCodes : ((List.range 256).filter fun n => isPad (classOf c (BitVec.ofNat 8 n))).length = 1 :=
  length_filter_codes (List.nodup_singleton c.pad) (p := fun x => isPad (classOf c x))
    fun x => by rw [isPad_iff, classOf_eq_padc_iff, List.mem_singleton]

/-- The known codes are the padding symbol and the 64 entries, which are distinct (R81); the others are 256 - 65. -/
theorem length_unknownCodes (hc : c.WF) :
    ((List.range 256).filter fun n => isUnk (classOf c (BitVec.ofNat 8 n))).length = 191 := by
  have hknown := length_filter_codes hc.1 (p := fun x => !isUnk (classOf c x))
    fun x => by rw [Bool.not_eq_true', ← Bool.not_eq_true, isUnk_iff, classOf_eq_unk_iff hc, not_not]
  have htotal := List.length_eq_length_filter_add (l := List.range 256) fun n => isUnk (classOf c (BitVec.ofNat 8 n))
  simp only [List.length_range, List.length_cons, Vector.length_toList] at hknown htotal
  omega

/-- Settles O4: the class of a code by the two equivalences of `CLASS`, and the counts by the lists of the codes of a class. -/
theorem classComparesWithTheAlphabet : Obligations.ClassComparesWithTheAlphabet := by
  intro s hw
  refine ⟨fun x => ⟨_, answerClassOf_of_wf x hw, classOf_eq_padc_iff.mpr, fun _ => (classOf_eq_val_iff hw).mpr, ?_⟩,
    length_valueCodes hw, length_paddingCodes, length_unknownCodes hw⟩
  intro hpad halpha
  have hmem : x ∉ s.cfg.alpha.toList := fun h => (mem_alpha_iff.mp h).elim halpha
  exact (classOf_eq_unk_iff hw).mpr (List.not_mem_cons_of_ne_of_not_mem hpad hmem)

/-! ## The classic alphabet (R85; 30_encoding.md R71 (c)) -/

/-- "A" to "Z", "a" to "z", "0" to "9", "+" and "/", as ranges of codes. -/
theorem classicCodes_eq_ranges :
    classicCodes =
      (List.range' 0x41 26 ++ List.range' 0x61 26 ++ List.range' 0x30 10 ++ [0x2B, 0x2F]).map (BitVec.ofNat 8) := rfl

theorem symOf_classicConfig (v : Val) : symOf classicConfig v = classicCodes[v.toNat]'v.isLt := rfl

theorem classicConfig_wf : classicConfig.WF := by decide

/-- Settles O1: the table is compared with the list of the classic codes, entry by entry. -/
theorem classicAlphabetTable : Obligations.ClassicAlphabetTable :=
  ⟨rfl, classicConfig_wf, rfl, by decide⟩

theorem mem_classicCodes_iff :
    x ∈ classicCodes ↔
      (0x41 ≤ x.toNat ∧ x.toNat ≤ 0x5A) ∨ (0x61 ≤ x.toNat ∧ x.toNat ≤ 0x7A) ∨ (0x30 ≤ x.toNat ∧ x.toNat ≤ 0x39) ∨
        x.toNat = 0x2B ∨ x.toNat = 0x2F := by
  have hmem : ∀ l : List Nat, (∀ n ∈ l, n < 256) → (x ∈ l.map (BitVec.ofNat 8) ↔ x.toNat ∈ l) := by
    intro l hl
    rw [List.mem_map]
    constructor
    · rintro ⟨n, hn, rfl⟩
      simpa [Nat.mod_eq_of_lt (hl n hn)] using hn
    · exact fun h => ⟨_, h, by simp⟩
  rw [classicCodes_eq_ranges, hmem _ (by decide)]
  simp only [List.mem_append, List.mem_range'_1, List.mem_cons, List.not_mem_nil, or_false]
  omega

/-- The unknown codes lie between and around the ranges of the alphabet and the padding symbol (R71 (c)). -/
theorem classOf_classicConfig_eq_unk_iff :
    classOf classicConfig x = .unk ↔
      x.toNat ≤ 0x2A ∨ (0x2C ≤ x.toNat ∧ x.toNat ≤ 0x2E) ∨ (0x3A ≤ x.toNat ∧ x.toNat ≤ 0x3C) ∨
        (0x3E ≤ x.toNat ∧ x.toNat ≤ 0x40) ∨ (0x5B ≤ x.toNat ∧ x.toNat ≤ 0x60) ∨ 0x7B ≤ x.toNat := by
  have hpad : x = classicPad ↔ x.toNat = 0x3D := BitVec.toNat_inj.symm
  have hmem : x ∈ classicConfig.pad :: classicConfig.alpha.toList ↔ x = classicPad ∨ x ∈ classicCodes := List.mem_cons
  rw [classOf_eq_unk_iff classicConfig_wf, hmem, hpad, mem_classicCodes_iff]
  omega

/-- The code of row `v` is entry `v` of the classic alphabet. -/
theorem encode_symRow {v : Nat} {i : Instr} (h : symRows[v]? = some i) :
    encode i = .sym8 (symOf classicConfig (BitVec.ofNat 6 v)) := by
  obtain ⟨hv, rfl⟩ := List.getElem?_eq_some_iff.mp h
  have hlt : v < 64 := hv
  have hrow := encode_symRows_getD (show v < classicCodes.length from hlt)
  rw [List.getD_eq_getElem _ _ hv] at hrow
  simpa [symOf_classicConfig, Nat.mod_eq_of_lt hlt] using hrow

/-- The default row has the codes that are no entry and not the padding symbol. -/
theorem classOf_of_symUnk_wf (h : (Instr.symUnk x).wf c = true) : classOf classicConfig x = .unk := by
  obtain ⟨hi, hp⟩ := of_decide_eq_true h
  have hx : x ∉ classicCodes := fun hx => by simpa using List.findIdx?_eq_none_iff.mp hi x hx
  exact (classOf_eq_unk_iff classicConfig_wf).mpr (List.not_mem_cons_of_ne_of_not_mem hp hx)

/-- Settles O6: each row is the lookup of its code, whose class the classic alphabet gives. -/
theorem classicRowsHaveTheirClasses : Obligations.ClassicRowsHaveTheirClasses := by
  intro s hw ha hp
  have hclass : ∀ x, classOf s.cfg x = classOf classicConfig x := classOf_congr ha hp
  have hrow : ∀ i x, encode i = .sym8 x → exec i s = .next (s.answering (.cls (classOf classicConfig x))) :=
    fun i x h => hclass x ▸ symbolRowsGiveTheirClass i x s h hw
  refine ⟨fun v i h => ?_, ?_, fun x hx => ?_, fun x => ?_⟩
  · rw [hrow _ _ (encode_symRow h), classOf_symOf classicConfig_wf]
  · exact hrow .symPad classicPad rfl
  · rw [hrow _ x rfl, classOf_of_symUnk_wf hx]
  · rw [hclass, classOf_classicConfig_eq_unk_iff]

end Sys2Proof.Machine
end

section
/-! SUPPORT. The turns of ENC (41_encoder.md R91 to R96): START, the step that the number of bytes left selects, and what
each group step writes. -/

namespace Sys2Proof.Machine

variable {s t : State} {u : UnitId}

/-! ## Turns -/

/-- A BUSY unit takes the step that its fetched code decodes to. -/
theorem unitTurn_of_fetch {c : Code} {i : Instr} (hb : (s.unit u).st = .busy) (hf : unitFetch s u = some c)
    (hd : decode c = .ok (.instr i)) : unitTurn u s = exec i s := by
  rw [unitTurn, if_pos hb, hf]
  exact runCode_instr hd

theorem unitTurn_of_not_busy (hw : s.cfg.WF) (hb : (s.unit u).st ≠ .busy) : unitTurn u s = .next s := by
  rw [unitTurn, if_neg hb]
  exact underConfig_of_wf hw

theorem turn_enc_of_three_le (hb : s.enc.st = .busy) (h : s.enc.rp + 3 ≤ s.enc.ilen) :
    turn .enc s = exec (.enc3 (readInput s .enc s.enc.rp) (readInput s .enc (s.enc.rp + 1))
      (readInput s .enc (s.enc.rp + 2))) s :=
  unitTurn_of_fetch hb (if_pos h) (decode_wordG24 ..)

theorem turn_enc_of_two_left (hb : s.enc.st = .busy) (h : s.enc.rp + 2 = s.enc.ilen) :
    turn .enc s = exec (.enc2 (readInput s .enc s.enc.rp) (readInput s .enc (s.enc.rp + 1))) s :=
  unitTurn_of_fetch hb (by rw [unitFetch, encFetch, if_neg (by omega), if_pos h]; rfl) (decode_wordG18 ..)

theorem turn_enc_of_one_left (hb : s.enc.st = .busy) (h : s.enc.rp + 1 = s.enc.ilen) :
    turn .enc s = exec (.enc1 (readInput s .enc s.enc.rp)) s :=
  unitTurn_of_fetch hb (by rw [unitFetch, encFetch, if_neg (by omega), if_neg (by omega), if_pos h]; rfl)
    (decode_wordG12 _)

theorem turn_enc_of_none_left (hb : s.enc.st = .busy) (h : s.enc.rp = s.enc.ilen) : turn .enc s = exec .encFinish s :=
  unitTurn_of_fetch hb
    (by rw [unitFetch, encFetch, if_neg (by omega), if_neg (by omega), if_neg (by omega), if_pos h]) rfl

/-- Settles O13: the step is the one of the four cases of the number of bytes left. -/
theorem encStepIsSelectedByBytesLeft : Obligations.EncStepIsSelectedByBytesLeft := by
  refine fun s hw => ⟨unitTurn_of_not_busy (u := .enc) hw, fun hb hle => ?_⟩
  obtain h | h | h | h : s.enc.rp + 3 ≤ s.enc.ilen ∨ s.enc.rp + 2 = s.enc.ilen ∨ s.enc.rp + 1 = s.enc.ilen ∨
    s.enc.rp = s.enc.ilen := by omega
  · exact ⟨_, turn_enc_of_three_le hb h, fun _ => rfl, by omega, by omega, by omega⟩
  · exact ⟨_, turn_enc_of_two_left hb h, by omega, fun _ => rfl, by omega, by omega⟩
  · exact ⟨_, turn_enc_of_one_left hb h, by omega, by omega, fun _ => rfl, by omega⟩
  · exact ⟨_, turn_enc_of_none_left hb h, by omega, by omega, by omega, fun _ => rfl⟩

/-! ## START and FINISH -/

theorem exec_encStart (hw : s.cfg.WF) : exec .encStart s = .next (startUnit .enc s) := underConfig_of_wf hw

/-- Settles O8, by the two cases of START. -/
theorem encStartBeginsATransaction : Obligations.EncStartBeginsATransaction := fun s hw =>
  ⟨fun hb => by rw [exec_encStart hw, startUnit_busy (u := .enc) hb],
    fun hb => by rw [exec_encStart hw, startUnit_enc hb, CodecUnit.started]⟩

/-- What ENC.FINISH can do, its guard included. -/
theorem exec_encFinish_next :
    exec .encFinish s = .next t ↔
      s.cfg.WF ∧ (s.enc.st = .busy ∧ s.enc.rp = s.enc.ilen) ∧ t = { s with enc := s.enc.finished s.enc.wp none } := by
  rw [exec, execEncFinish, finishing_next, encLeft, decide_eq_true_iff, Nat.add_zero]

/-- Settles O12: with no byte left ENC takes ENC.FINISH, which is enabled. -/
theorem encFinishPublishesTheLength : Obligations.EncFinishPublishesTheLength := fun _ hw hb hl =>
  ⟨turn_enc_of_none_left hb hl, exec_encFinish_next.mpr ⟨hw, ⟨hb, hl⟩, rfl⟩⟩

/-! ## The group steps (R92 to R94) -/

theorem CodecUnit.read_moved_add (x : CodecUnit) (n : Nat) {j : Nat} {out : List (BitVec 8)} (hj : j < out.length) :
    (x.moved n out).obuf.read (x.wp + j) = out[j]? := by
  rw [x.read_moved, if_pos (by omega), Nat.add_sub_cancel_left]

theorem CodecUnit.read_moved_outside (x : CodecUnit) (n : Nat) {i : Nat} {out : List (BitVec 8)}
    (hi : i < x.wp ∨ x.wp + out.length ≤ i) : (x.moved n out).obuf.read i = x.obuf.read i := by
  rw [x.read_moved, if_neg (by omega)]

/-- An enabled group step of ENC writes its four symbols at `WP` and moves the two pointers. -/
theorem encGroup_writes {b : Bool} {n : Nat} (e0 e1 e2 e3 : Symbol) (hw : s.cfg.WF) (hb : b = true)
    (hi : s.enc.rp + n ≤ ibufSize s.cfg .enc) (ho : s.enc.wp + 4 ≤ obufSize s.cfg .enc) :
    ∃ t, encGroup b n [e0, e1, e2, e3] s = .next t ∧
      t.enc.obuf.read s.enc.wp = some e0 ∧ t.enc.obuf.read (s.enc.wp + 1) = some e1 ∧
      t.enc.obuf.read (s.enc.wp + 2) = some e2 ∧ t.enc.obuf.read (s.enc.wp + 3) = some e3 ∧
      (∀ i, (i < s.enc.wp ∨ s.enc.wp + 4 ≤ i) → t.enc.obuf.read i = s.enc.obuf.read i) ∧
      t = { s with enc := { s.enc with obuf := t.enc.obuf, rp := s.enc.rp + n, wp := s.enc.wp + 4 } } :=
  have hread {j : Nat} (hj : j < 4) := s.enc.read_moved_add n (out := [e0, e1, e2, e3]) hj
  ⟨_, encGroup_next.mpr ⟨hw, hb, hi, ho, rfl⟩, hread (j := 0) (by decide), hread (j := 1) (by decide),
    hread (j := 2) (by decide), hread (j := 3) (by decide),
    fun _ => s.enc.read_moved_outside n (out := [e0, e1, e2, e3]), rfl⟩

/-- Settles O9, by `encGroup_writes`. -/
theorem enc3EncodesAFullGroup : Obligations.Enc3EncodesAFullGroup := fun _ hw hb hl hi ho =>
  ⟨turn_enc_of_three_le hb hl, fun _ _ _ => encGroup_writes _ _ _ _ hw (decide_eq_true ⟨hb, hl⟩) hi ho⟩

/-- Settles O10, by `encGroup_writes`. -/
theorem enc2EncodesTwoTrailingBytes : Obligations.Enc2EncodesTwoTrailingBytes := fun _ hw hb hl hi ho =>
  ⟨turn_enc_of_two_left hb hl, fun _ _ => encGroup_writes _ _ _ _ hw (decide_eq_true ⟨hb, hl⟩) hi ho⟩

/-- Settles O11, by `encGroup_writes`. -/
theorem enc1EncodesOneTrailingByte : Obligations.Enc1EncodesOneTrailingByte := fun _ hw hb hl hi ho =>
  ⟨turn_enc_of_one_left hb hl, fun _ => encGroup_writes _ _ _ _ hw (decide_eq_true ⟨hb, hl⟩) hi ho⟩

end Sys2Proof.Machine
end

section
/-! SUPPORT. The function `encode` (41_encoder.md R90): its length and its padding (R97, R98), its value on a concatenation,
and that the groups it puts out decode to the bytes it took in. -/

namespace Sys2Proof.Machine

variable {c : Config}

/-! ## Length and concatenation -/

theorem length_codecEncode (c : Config) (x : List Byte) : (codecEncode c x).length = 4 * ((x.length + 2) / 3) := by
  induction x using codecEncode.induct with
  | case1 | case2 | case3 => simp [codecEncode]
  | case4 b0 b1 b2 x ih =>
    simp only [codecEncode, List.length_cons, ih]
    omega

/-- Whole groups are encoded one by one. -/
theorem codecEncode_append {x : List Byte} (y : List Byte) (h : x.length % 3 = 0) :
    codecEncode c (x ++ y) = codecEncode c x ++ codecEncode c y := by
  induction x using codecEncode.induct with
  | case1 => rfl
  | case2 | case3 => cases h
  | case4 b0 b1 b2 x ih =>
    have hx : x.length % 3 = 0 := by simpa [Nat.add_assoc] using h
    simp only [List.cons_append, codecEncode, ih hx]

/-! ## Shape (R98) -/

/-- The number of padding symbols of the encoding of `n` bytes (R98). -/
def padCount (n : Nat) : Nat := if n % 3 = 0 then 0 else if n % 3 = 1 then 2 else 1

theorem padCount_add_three (n : Nat) : padCount (n + 3) = padCount n := by simp only [padCount, Nat.add_mod_right]

/-- An encoding is a run of value symbols, then its padding symbols. -/
theorem codecEncode_eq_withEnd (c : Config) (x : List Byte) :
    ∃ vs : List Val, codecEncode c x = withEnd c [] vs (padCount x.length) := by
  induction x using codecEncode.induct with
  | case1 => exact ⟨[], rfl⟩
  | case2 b0 => exact ⟨[encV0 b0, encV1Last b0], rfl⟩
  | case3 b0 b1 => exact ⟨[encV0 b0, encV1 b0 b1, encV2Last b1], rfl⟩
  | case4 b0 b1 b2 x ih =>
    obtain ⟨vs, hvs⟩ := ih
    refine ⟨encV0 b0 :: encV1 b0 b1 :: encV2 b1 b2 :: encV3 b2 :: vs, ?_⟩
    rw [codecEncode, hvs]
    simp only [List.length_cons, Nat.add_assoc, padCount_add_three]
    rfl

/-- What stands at an index of a string of value symbols and then padding symbols. -/
theorem getElem?_withEnd {vs : List Val} {p i : Nat} {e : Symbol} (h : (withEnd c [] vs p)[i]? = some e) :
    (i < vs.length ∧ ∃ v, e = symOf c v) ∨ (vs.length ≤ i ∧ e = c.pad) := by
  rw [withEnd, List.nil_append] at h
  rcases Nat.lt_or_ge i vs.length with hi | hi
  · rw [List.getElem?_append_left (by simpa using hi), List.getElem?_map, Option.map_eq_some_iff] at h
    obtain ⟨v, -, rfl⟩ := h
    exact .inl ⟨hi, v, rfl⟩
  · rw [List.getElem?_append_right (by simpa using hi)] at h
    exact .inr ⟨hi, List.eq_of_mem_replicate (List.mem_of_getElem? h)⟩

/-- Settles O15: an index of the encoding lies among its value symbols or among its padding symbols. -/
theorem encodeShape : Obligations.EncodeShape := by
  intro c x hc out p i e he
  obtain ⟨vs, hvs⟩ : ∃ vs, out = withEnd c [] vs p := codecEncode_eq_withEnd c x
  have hlen : out.length = vs.length + p := by rw [hvs, length_withEnd, List.length_nil, Nat.zero_add]
  rw [hvs] at he
  obtain ⟨hi, v, rfl⟩ | ⟨hi, rfl⟩ := getElem?_withEnd he
  · exact ⟨by omega, fun _ => ⟨symOf_ne_pad hc v, v, rfl⟩⟩
  · exact ⟨fun _ => rfl, by omega⟩

/-! ## The groups decode to their bytes (R61 to R64) -/

theorem wordQ24_of_bytes (b0 b1 b2 : Byte) :
    wordQ24 (encV0 b0) (encV1 b0 b1) (encV2 b1 b2) (encV3 b2) = wordG24 b0 b1 b2 := by
  obtain ⟨h0, h1, h2, h3⟩ := values_wordG24 b0 b1 b2
  rw [← h0, ← h1, ← h2, ← h3, wordQ24_slices]

theorem wordQ18_of_bytes (b0 b1 : Byte) : wordQ18 (encV0 b0) (encV1 b0 b1) (encV2Last b1) = wordG18 b0 b1 := by
  obtain ⟨h0, h1, h2⟩ := values_wordG18 b0 b1
  rw [← h0, ← h1, ← h2, wordQ18_slices]

theorem wordQ12_of_bytes (b0 : Byte) : wordQ12 (encV0 b0) (encV1Last b0) = wordG12 b0 := by
  obtain ⟨h0, h1⟩ := values_wordG12 b0
  rw [← h0, ← h1, wordQ12_slices]

/-- The four values of three bytes give the three bytes back: both views cut the same word. -/
theorem bytes_of_values₃ (b0 b1 b2 : Byte) :
    decB0 (encV0 b0) (encV1 b0 b1) = b0 ∧ decB1 (encV1 b0 b1) (encV2 b1 b2) = b1 ∧
      decB2 (encV2 b1 b2) (encV3 b2) = b2 := by
  obtain ⟨h0, h1, h2⟩ := bytes_wordQ24 (encV0 b0) (encV1 b0 b1) (encV2 b1 b2) (encV3 b2)
  rw [← h0, ← h1, ← h2, wordQ24_of_bytes]
  exact slices_wordG24 b0 b1 b2

theorem bytes_of_values₂ (b0 b1 : Byte) :
    decB0 (encV0 b0) (encV1 b0 b1) = b0 ∧ decB1 (encV1 b0 b1) (encV2Last b1) = b1 := by
  obtain ⟨h0, h1⟩ := bytes_wordQ18 (encV0 b0) (encV1 b0 b1) (encV2Last b1)
  obtain ⟨g0, g1, -⟩ := slices_wordG18 b0 b1
  rw [← h0, ← h1, wordQ18_of_bytes]
  exact ⟨g0, g1⟩

theorem bytes_of_values₁ (b0 : Byte) : decB0 (encV0 b0) (encV1Last b0) = b0 := by
  rw [← bytes_wordQ12, wordQ12_of_bytes, (slices_wordG12 b0).1]

/-- The groups of an encoding decode to the bytes encoded (R126, without the checks of `decode`). -/
theorem decodeGroups_codecEncode (hc : c.WF) (x : List Byte) : decodeGroups c (codecEncode c x) = x := by
  induction x using codecEncode.induct with
  | case1 => rfl
  | case2 b0 => simp [codecEncode, decodeGroups, padSym, classOf_symOf hc, classOf_pad, groupBytes, bytes_of_values₁]
  | case3 b0 b1 => simp [codecEncode, decodeGroups, padSym, classOf_symOf hc, classOf_pad, groupBytes, bytes_of_values₂]
  | case4 b0 b1 b2 x ih =>
    obtain ⟨h0, h1, h2⟩ := bytes_of_values₃ b0 b1 b2
    simp [codecEncode, decodeGroups, classOf_symOf hc, groupBytes, h0, h1, h2, ih]

/-- Settles O14: the length by induction, injectivity because `decodeGroups` is a left inverse, and the length that
ENC.FINISH publishes because at `RP = ILEN` the invariant fixes `WP`. -/
theorem encodeLengthAndInjectivity : Obligations.EncodeLengthAndInjectivity := by
  refine ⟨fun c x => ?_, fun c x y hc h => ?_, fun s t hi h => ?_⟩
  · rw [length_codecEncode]
    exact ⟨rfl, Nat.mul_mod_right ..⟩
  · exact Function.LeftInverse.injective (decodeGroups_codecEncode hc) h
  · obtain ⟨-, ⟨hb, hl⟩, rfl⟩ := exec_encFinish_next.mp h
    rw [CodecUnit.finished_olen, CodecUnit.finished_ilen, hi.enc.busyWritten hb, hl]

end Sys2Proof.Machine
end

section
/-! SUPPORT. The transaction of ENC (41_encoder.md R99, R101, R102): after `k` groups ENC has put out the encoding of the
bytes it has read; and the transactions on the empty input (R103, R129). -/

namespace Sys2Proof.Machine

variable {s t : State} {a : Agent} {k : Nat}

/-! ## Several turns -/

/-- Several turns and one more. -/
theorem manyTurns_succ {v : State} (h : manyTurns a k s = .next v) : manyTurns a (k + 1) s = turn a v := by
  induction k generalizing s with
  | zero =>
    cases h
    rw [manyTurns]
    cases turn a v <;> rfl
  | succ k ih =>
    rw [manyTurns] at h ⊢
    split at h
    · exact ih h
    · cases h
    · cases h

theorem turn_inv (h : turn a s = .next t) (hi : Inv s) : Inv t := by
  cases a with
  | enc | dec => exact (unitTurn_core h).inv hi
  | host => exact (hostTurn_core h).inv hi
  | reset =>
    obtain ⟨-, h⟩ := underConfig_next.mp h
    cases h
    exact .of_reset hi.config rfl rfl

/-! ## The input and the output pointers -/

theorem length_memRead (s : State) (u : UnitId) (i n : Nat) : (memRead s u i n).length = n := by simp [memRead]

theorem memRead_add (s : State) (u : UnitId) (i n m : Nat) :
    memRead s u i (n + m) = memRead s u i n ++ memRead s u (i + n) m := by
  simp [memRead, List.range_add, Nat.add_assoc, Function.comp_def]

theorem Memory.writeAll_append (m : Memory) (i : Nat) (es fs : List (BitVec 8)) :
    m.writeAll i (es ++ fs) = (m.writeAll i es).writeAll (i + es.length) fs := by
  induction es generalizing m i with
  | nil => rfl
  | cons e es ih =>
    simp only [List.cons_append, Memory.writeAll, ih, List.length_cons]
    rw [Nat.add_right_comm, Nat.add_assoc]

/-- Two group steps read and write what one would that does both. -/
theorem CodecUnit.moved_moved (x : CodecUnit) (n m : Nat) (out out' : List (BitVec 8)) :
    (x.moved n out).moved m out' = x.moved (n + m) (out ++ out') := by
  simp [CodecUnit.moved, Memory.writeAll_append, Nat.add_assoc]

/-! ## One group -/

theorem EncInv.ilen_le_ibufSize (h : EncInv s) : s.enc.ilen ≤ ibufSize s.cfg .enc := Nat.le_sub_one_of_lt h.ilenFits

/-- While input is left, the next group fits the output buffer (R23). -/
theorem EncInv.obuf_room (h : EncInv s) (hb : s.enc.st = .busy) (hlt : s.enc.rp < s.enc.ilen) :
    s.enc.wp + 4 ≤ obufSize s.cfg .enc := by
  have hr := h.busyRead hb
  have hwp := h.busyWritten hb
  have hf : s.enc.ilen < 2 ^ s.cfg.lenW := h.ilenFits
  rw [obufSize]
  omega

/-- The number of bytes that the next group of ENC takes (R96). -/
def nextGroupSize (x : CodecUnit) : Nat := min 3 (x.ilen - x.rp)

/-- While input is left, a turn of ENC reads the next group and writes its encoding. -/
theorem turn_enc_of_lt (hi : Inv s) (hb : s.enc.st = .busy) (hlt : s.enc.rp < s.enc.ilen) :
    turn .enc s = .next { s with
      enc := s.enc.moved (nextGroupSize s.enc)
        (codecEncode s.cfg (memRead s .enc s.enc.rp (nextGroupSize s.enc))) } := by
  have hsize := hi.enc.ilen_le_ibufSize
  have hroom := hi.enc.obuf_room hb hlt
  obtain h | h | h : s.enc.rp + 3 ≤ s.enc.ilen ∨ s.enc.rp + 2 = s.enc.ilen ∨ s.enc.rp + 1 = s.enc.ilen := by omega
  · rw [turn_enc_of_three_le hb h, show nextGroupSize s.enc = 3 by unfold nextGroupSize; omega]
    exact encGroup_next.mpr ⟨hi.config, decide_eq_true ⟨hb, h⟩, by omega, hroom, rfl⟩
  · rw [turn_enc_of_two_left hb h, show nextGroupSize s.enc = 2 by unfold nextGroupSize; omega]
    exact encGroup_next.mpr ⟨hi.config, decide_eq_true ⟨hb, h⟩, by omega, hroom, rfl⟩
  · rw [turn_enc_of_one_left hb h, show nextGroupSize s.enc = 1 by unfold nextGroupSize; omega]
    exact encGroup_next.mpr ⟨hi.config, decide_eq_true ⟨hb, h⟩, by omega, hroom, rfl⟩

/-! ## All groups -/

/-- The state in which ENC, started in `s`, has read the first `n` bytes of its input and put out their encoding. -/
def encodedUpTo (s : State) (n : Nat) : State :=
  { s with enc := s.enc.started.moved n (codecEncode s.cfg (memRead s .enc 0 n)) }

theorem encodedUpTo_zero (s : State) : encodedUpTo s 0 = { s with enc := s.enc.started } := rfl

/-- A turn of ENC after whole groups goes on to the end of the next group. -/
theorem turn_encodedUpTo {n : Nat} (hi : Inv (encodedUpTo s n)) (h3 : n % 3 = 0) (hn : n < s.enc.ilen) :
    turn .enc (encodedUpTo s n) = .next (encodedUpTo s (min (n + 3) s.enc.ilen)) := by
  have hrp : (encodedUpTo s n).enc.rp = n := Nat.zero_add n
  have hsize : nextGroupSize (encodedUpTo s n).enc = min 3 (s.enc.ilen - n) := by rw [nextGroupSize, hrp]; rfl
  have hend : min (n + 3) s.enc.ilen = n + min 3 (s.enc.ilen - n) := by omega
  have hlen : (memRead s .enc 0 n).length % 3 = 0 := by rw [length_memRead, h3]
  rw [turn_enc_of_lt hi rfl (by rw [hrp]; exact hn), hrp, hsize, hend]
  conv_rhs => rw [encodedUpTo, memRead_add, codecEncode_append _ hlen, ← CodecUnit.moved_moved, Nat.zero_add]
  rfl

/-- After START, `k` turns of ENC take `k` groups: three bytes each, and the last one what is left. -/
theorem manyTurns_enc (hi : Inv s) (hk : 3 * k < s.enc.ilen + 3) :
    manyTurns .enc k (encodedUpTo s 0) = .next (encodedUpTo s (min (3 * k) s.enc.ilen)) ∧
      Inv (encodedUpTo s (min (3 * k) s.enc.ilen)) := by
  induction k with
  | zero =>
    rw [Nat.mul_zero, Nat.zero_min]
    exact ⟨rfl, hi.config, hi.enc.started, hi.dec.of_eq rfl rfl⟩
  | succ k ih =>
    obtain ⟨hrun, hinv⟩ := ih (by omega)
    rw [Nat.min_eq_left (by omega)] at hrun hinv
    have hturn := turn_encodedUpTo hinv (Nat.mul_mod_right 3 k) (by omega)
    exact ⟨(manyTurns_succ hrun).trans hturn, turn_inv hturn hinv⟩

/-- The whole transaction of ENC: `ceil(ILEN / 3)` groups, then ENC.FINISH (R102). -/
theorem manyTurns_encSteps (hi : Inv s) :
    manyTurns .enc (encSteps s.enc.ilen) (encodedUpTo s 0) = .next { s with
      enc := (encodedUpTo s s.enc.ilen).enc.finished (codecEncode s.cfg (inputOf s .enc)).length none } := by
  obtain ⟨hrun, hinv⟩ := manyTurns_enc (k := (s.enc.ilen + 2) / 3) hi (by omega)
  rw [Nat.min_eq_right (by omega)] at hrun hinv
  have hrp : (encodedUpTo s s.enc.ilen).enc.rp = s.enc.ilen := Nat.zero_add _
  have hwp : (encodedUpTo s s.enc.ilen).enc.wp = (codecEncode s.cfg (inputOf s .enc)).length := Nat.zero_add _
  rw [encSteps, manyTurns_succ hrun, turn_enc_of_none_left rfl hrp, ← hwp]
  exact exec_encFinish_next.mpr ⟨hinv.config, ⟨rfl, hrp⟩, rfl⟩

/-- Settles O16: each turn takes one more group (`manyTurns_enc`), and with no byte left ENC.FINISH publishes the length. -/
theorem encTransactionComputesEncode : Obligations.EncTransactionComputesEncode := by
  intro s hi hb
  refine ⟨encodedUpTo s 0, by rw [exec_encStart hi.config, startUnit_enc hb, encodedUpTo_zero], fun k hk => ?_,
    _, manyTurns_encSteps hi, rfl, rfl, rfl, fun i hlt => ?_, rfl, rfl, rfl⟩
  · rw [encSteps] at hk
    exact ⟨_, (manyTurns_enc hi (by omega)).1, rfl⟩
  · have h := s.enc.started.read_moved_add s.enc.ilen hlt
    rwa [CodecUnit.started_wp, Nat.zero_add] at h

/-! ## The empty input (R103, R129) -/

/-- With a whole number of groups read, DEC takes DEC.FINISH (42_decoder.md R122). -/
theorem turn_dec_of_none_left (hb : s.dec.st = .busy) (h4 : s.dec.ilen % 4 = 0) (h : s.dec.rp = s.dec.ilen) :
    turn .dec s = exec .decFinish s :=
  unitTurn_of_fetch hb (by rw [unitFetch, decFetch, if_neg (by omega), if_neg (by omega), if_pos h]) rfl

theorem exec_decStart (hw : s.cfg.WF) : exec .decStart s = .next (startUnit .dec s) := underConfig_of_wf hw

/-- What DEC.FINISH can do, its guard included. -/
theorem exec_decFinish_next :
    exec .decFinish s = .next t ↔
      s.cfg.WF ∧ (s.dec.st = .busy ∧ s.dec.ilen % 4 = 0 ∧ s.dec.rp = s.dec.ilen) ∧ t = decFinished s := by
  rw [exec, execDecFinish, finishing_next, decide_eq_true_iff]

/-- Settles O31: with `ILEN` = 0 a unit that has just been started has no group to take, and finishes. -/
theorem emptyInputGivesEmptyOutput : Obligations.EmptyInputGivesEmptyOutput := by
  refine ⟨fun _ => ⟨rfl, rfl⟩, fun s hw hb h0 => ?_, fun s hw hb h0 => ?_⟩
  · refine ⟨_, exec_encStart hw, ?_⟩
    rw [startUnit_enc hb]
    exact .trans (turn_enc_of_none_left rfl h0.symm) (exec_encFinish_next.mpr ⟨hw, ⟨rfl, h0.symm⟩, rfl⟩)
  · have h4 : s.dec.ilen % 4 = 0 := by rw [h0]
    refine ⟨_, exec_decStart hw, ?_⟩
    rw [startUnit_dec hb]
    exact .trans (turn_dec_of_none_left rfl h4 h0.symm) (exec_decFinish_next.mpr ⟨hw, ⟨rfl, h4, h0.symm⟩, rfl⟩)

end Sys2Proof.Machine
end

section
/-! SUPPORT. The turns of DEC (42_decoder.md R115 to R122): START, LENFAIL, the group step that the classes select and what
it writes, FINISH. -/

namespace Sys2Proof.Machine

variable {s : State} {i : Instr} {k0 k1 k2 k3 : SymClass} {last : Bool}

/-! ## START, LENFAIL and FINISH -/

/-- Settles O17, by the two cases of START. -/
theorem decStartBeginsATransaction : Obligations.DecStartBeginsATransaction := fun s hw =>
  ⟨fun hb => by rw [exec_decStart hw, startUnit_busy (u := .dec) hb],
    fun hb => by rw [exec_decStart hw, startUnit_dec hb, CodecUnit.started]⟩

theorem turn_dec_of_badLength (hb : s.dec.st = .busy) (h4 : s.dec.ilen % 4 ≠ 0) : turn .dec s = exec .decLenfail s :=
  unitTurn_of_fetch hb (if_pos h4) rfl

theorem exec_decLenfail (hw : s.cfg.WF) (hb : s.dec.st = .busy) (h4 : s.dec.ilen % 4 ≠ 0) :
    exec .decLenfail s = .next (raiseDecodeError .malformedLength s) :=
  finishing_next.mpr ⟨hw, decide_eq_true ⟨hb, h4⟩, rfl⟩

/-- Settles O18: on a bad length DEC takes DEC.LENFAIL, which is enabled. -/
theorem decLenfailReportsMalformedLength : Obligations.DecLenfailReportsMalformedLength := fun _ hw hb h4 =>
  ⟨turn_dec_of_badLength hb h4, exec_decLenfail hw hb h4⟩

theorem decFinished_of_paderr (hp : s.paderr = true) : decFinished s = raiseDecodeError .misplacedPadding s := if_pos hp

theorem decFinished_of_unkerr (hp : s.paderr = false) (hk : s.unkerr = true) :
    decFinished s = raiseDecodeError .unknownSymbol s := by
  rw [decFinished, hp, hk]
  rfl

theorem decFinished_of_no_error (hp : s.paderr = false) (hk : s.unkerr = false) :
    decFinished s = { s with dec := s.dec.finished s.dec.wp none } := by
  rw [decFinished, hp, hk]
  rfl

/-- Settles O23: with no symbol left DEC takes DEC.FINISH, which tests the two flags in their order. -/
theorem decFinishReportsTheOutcome : Obligations.DecFinishReportsTheOutcome := by
  intro s hw hb h4 hl
  have hfin : exec .decFinish s = .next (decFinished s) := exec_decFinish_next.mpr ⟨hw, ⟨hb, h4, hl⟩, rfl⟩
  refine ⟨turn_dec_of_none_left hb h4 hl, fun hp => ?_, fun hp hk => ?_, fun hp hk => ?_⟩
  · rw [hfin, decFinished_of_paderr hp]
    rfl
  · rw [hfin, decFinished_of_unkerr hp hk]
    rfl
  · rw [hfin, decFinished_of_no_error hp hk]
    rfl

/-! ## What a group step writes (R117 to R119) -/

/-- An enabled group step of DEC writes its bytes at `WP` and moves the two pointers. -/
theorem decGroup_writes {b p k : Bool} {out : List Byte} (hw : s.cfg.WF) (hb : b = true)
    (hi : s.dec.rp + 4 ≤ ibufSize s.cfg .dec) (ho : s.dec.wp + out.length ≤ obufSize s.cfg .dec) :
    ∃ t, decGroup b out p k s = .next t ∧
      (∀ j, j < out.length → t.dec.obuf.read (s.dec.wp + j) = out[j]?) ∧
      (∀ i, (i < s.dec.wp ∨ s.dec.wp + out.length ≤ i) → t.dec.obuf.read i = s.dec.obuf.read i) ∧
      t = { s with
        dec := { s.dec with obuf := t.dec.obuf, rp := s.dec.rp + 4, wp := s.dec.wp + out.length }
        paderr := p
        unkerr := k } :=
  ⟨_, decGroup_next.mpr ⟨hw, hb, hi, ho, rfl⟩, fun _ => s.dec.read_moved_add 4, fun _ => s.dec.read_moved_outside 4, rfl⟩

theorem decGroupEnabled_iff :
    decGroupEnabled s = true ↔ s.dec.st = .busy ∧ s.dec.ilen % 4 = 0 ∧ s.dec.rp < s.dec.ilen := decide_eq_true_iff

theorem lastGroup_iff : lastGroup s = true ↔ s.dec.rp + 4 = s.dec.ilen := decide_eq_true_iff

/-- DEC3 and DEC2 are enabled in the last group (R118, R119). -/
theorem lastGroupStep_enabled (hb : s.dec.st = .busy) (h4 : s.dec.ilen % 4 = 0) (hl : s.dec.rp + 4 = s.dec.ilen) :
    (decGroupEnabled s && lastGroup s) = true := by
  rw [Bool.and_eq_true, decGroupEnabled_iff, lastGroup_iff]
  exact ⟨⟨hb, h4, by omega⟩, hl⟩

/-- Settles O19, by `decGroup_writes`. -/
theorem dec4DecodesAFullGroup : Obligations.Dec4DecodesAFullGroup := by
  intro s hw hb h4 hlt hi ho v0 v1 v2 v3
  obtain ⟨t, ht, hread, hframe, heq⟩ := decGroup_writes (p := s.paderr) (k := s.unkerr)
    (out := [decB0 v0 v1, decB1 v1 v2, decB2 v2 v3]) hw (decGroupEnabled_iff.mpr ⟨hb, h4, hlt⟩) hi ho
  exact ⟨t, ht, hread 0 (by simp), hread 1 (by simp), hread 2 (by simp), hframe, heq⟩

/-- Settles O20, by `decGroup_writes`. -/
theorem dec3DecodesAGroupWithOnePad : Obligations.Dec3DecodesAGroupWithOnePad := by
  intro s hw hb h4 hl hi ho v0 v1 v2
  obtain ⟨t, ht, hread, hframe, heq⟩ := decGroup_writes (p := s.paderr) (k := s.unkerr)
    (out := [decB0 v0 v1, decB1 v1 v2]) hw (lastGroupStep_enabled hb h4 hl) hi ho
  exact ⟨t, ht, hread 0 (by simp), hread 1 (by simp), hframe, heq⟩

/-- Settles O21, by `decGroup_writes`. -/
theorem dec2DecodesAGroupWithTwoPads : Obligations.Dec2DecodesAGroupWithTwoPads := by
  intro s hw hb h4 hl hi ho v0 v1
  obtain ⟨t, ht, hread, hframe, heq⟩ := decGroup_writes (p := s.paderr) (k := s.unkerr)
    (out := [decB0 v0 v1]) hw (lastGroupStep_enabled hb h4 hl) hi ho
  exact ⟨t, ht, hread 0 (by simp), hframe, heq⟩

/-! ## The flags (R120) -/

theorem padLegal_iff :
    padLegal k0 k1 k2 k3 last = true ↔
      ¬ (k0 = .padc ∨ k1 = .padc ∨ k2 = .padc ∨ k3 = .padc) ∨
        (last = true ∧ k0 ≠ .padc ∧ k1 ≠ .padc ∧ k3 = .padc) := by
  simp [padLegal, anyPad, ← isPad_iff, and_assoc]

theorem hasUnk_iff : hasUnk k0 k1 k2 k3 = true ↔ k0 = .unk ∨ k1 = .unk ∨ k2 = .unk ∨ k3 = .unk := by
  simp [hasUnk, isUnk_iff, or_assoc]

/-- DEC.GRPERR is selected by a group whose padding is not legal or that holds an unknown symbol. -/
theorem selectGroup_grperr_iff_flags :
    selectGroup k0 k1 k2 k3 last = .grperr ↔ ¬ padLegal k0 k1 k2 k3 last = true ∨ hasUnk k0 k1 k2 k3 = true := by
  have hok : (padLegal k0 k1 k2 k3 last && !hasUnk k0 k1 k2 k3) = true ↔
      ¬ (¬ padLegal k0 k1 k2 k3 last = true ∨ hasUnk k0 k1 k2 k3 = true) := by simp
  unfold selectGroup
  split_ifs with h
  · exact iff_of_false nofun (hok.mp h)
  · exact iff_of_false nofun (hok.mp h)
  · exact iff_of_false nofun (hok.mp h)
  · exact iff_of_true rfl (not_not.mp (mt hok.mpr h))

theorem selectGroup_ne_grperr_iff :
    selectGroup k0 k1 k2 k3 last ≠ .grperr ↔ padLegal k0 k1 k2 k3 last = true ∧ hasUnk k0 k1 k2 k3 = false := by
  rw [Ne, selectGroup_grperr_iff_flags, not_or, not_not, Bool.not_eq_true]

/-- A group that DEC.GRPERR does not take leaves the flags alone. -/
theorem flags_of_accepted (h : selectGroup k0 k1 k2 k3 last ≠ .grperr) (p k : Bool) :
    nextPaderr p k0 k1 k2 k3 last = p ∧ nextUnkerr k k0 k1 k2 k3 = k := by
  obtain ⟨hlegal, hunk⟩ := selectGroup_ne_grperr_iff.mp h
  rw [nextPaderr, nextUnkerr, hlegal, hunk]
  exact ⟨Bool.or_false p, Bool.or_false k⟩

/-- DEC.GRPERR is enabled for a pattern that selects it, with `last` as it is (R120). -/
theorem decGrperr_enabled (hen : decGroupEnabled s = true) (hl : lastGroup s = last)
    (h : selectGroup k0 k1 k2 k3 last = .grperr) :
    (decGroupEnabled s && decide (lastGroup s = last) && decide (selectGroup k0 k1 k2 k3 last = .grperr)) = true := by
  simp [hen, hl, h]

/-- Settles O22: the group that selects DEC.GRPERR breaks one of the two checks, and the step writes no byte. -/
theorem decGrperrNotesAnInvalidGroup : Obligations.DecGrperrNotesAnInvalidGroup := by
  intro s k0 k1 k2 k3 last hw hb h4 hlt hi ho hlast hwf anyP padlegal hasunk
  have hsel : selectGroup k0 k1 k2 k3 last = .grperr := of_decide_eq_true hwf
  have hlegal : padLegal k0 k1 k2 k3 last = true ↔ padlegal := padLegal_iff
  have hunk : hasUnk k0 k1 k2 k3 = true ↔ hasunk := hasUnk_iff
  have hl : lastGroup s = last := Bool.eq_iff_iff.mpr (lastGroup_iff.trans hlast.symm)
  have hen := decGrperr_enabled (decGroupEnabled_iff.mpr ⟨hb, h4, hlt⟩) hl hsel
  refine ⟨(selectGroup_grperr_iff_flags.mp hsel).imp (mt hlegal.mpr) hunk.mp, _,
    decGroup_next.mpr ⟨hw, hen, hi, ho, rfl⟩, ?_, ?_, rfl⟩
  · simp [nextPaderr, ← hlegal]
  · simp [nextUnkerr, ← hunk]

/-! ## The group step that the classes select (R122) -/

/-- `GroupInstr k0 k1 k2 k3 last i`: the operation `i` is the group step for the classes `k0` to `k3`, its operands
included (30_encoding.md R70). -/
inductive GroupInstr : SymClass → SymClass → SymClass → SymClass → Bool → Instr → Prop
  | dec4 (v0 v1 v2 v3 : Val) (last : Bool) :
    GroupInstr (.val v0) (.val v1) (.val v2) (.val v3) last (.dec4 v0 v1 v2 v3)
  | dec3 (v0 v1 v2 : Val) : GroupInstr (.val v0) (.val v1) (.val v2) .padc true (.dec3 v0 v1 v2)
  | dec2 (v0 v1 : Val) : GroupInstr (.val v0) (.val v1) .padc .padc true (.dec2 v0 v1)
  | grperr {k0 k1 k2 k3 : SymClass} {last : Bool} (h : selectGroup k0 k1 k2 k3 last = .grperr) :
    GroupInstr k0 k1 k2 k3 last (.decGrperr k0 k1 k2 k3 last)

/-- The code of a group decodes to the group step for its classes. -/
theorem decode_groupCode (k0 k1 k2 k3 : SymClass) (last : Bool) :
    ∃ i, decode (groupCode k0 k1 k2 k3 last) = .ok (.instr i) ∧ GroupInstr k0 k1 k2 k3 last i := by
  cases h : selectGroup k0 k1 k2 k3 last with
  | dec4 =>
    obtain ⟨⟨v0, rfl⟩, ⟨v1, rfl⟩, ⟨v2, rfl⟩, ⟨v3, rfl⟩⟩ := selectGroup_dec4_iff.mp h
    exact ⟨_, decode_wordQ24 .., .dec4 ..⟩
  | dec3 =>
    obtain ⟨rfl, ⟨v0, rfl⟩, ⟨v1, rfl⟩, ⟨v2, rfl⟩, rfl⟩ := selectGroup_dec3_iff.mp h
    exact ⟨_, decode_wordQ18 .., .dec3 ..⟩
  | dec2 =>
    obtain ⟨rfl, ⟨v0, rfl⟩, ⟨v1, rfl⟩, rfl, rfl⟩ := selectGroup_dec2_iff.mp h
    exact ⟨_, decode_wordQ12 .., .dec2 ..⟩
  | grperr => exact ⟨_, selectGroup_grperr_iff.mp h, .grperr h⟩

/-- The class of the code at `RP + j` of DEC's input. -/
def classAt (s : State) (j : Nat) : SymClass := classOf s.cfg (readInput s .dec (s.dec.rp + j))

/-- With symbols left, DEC takes the group step for the classes of the next four. -/
theorem turn_dec_of_lt (hb : s.dec.st = .busy) (h4 : s.dec.ilen % 4 = 0) (hlt : s.dec.rp < s.dec.ilen) :
    ∃ i, turn .dec s = exec i s ∧
      GroupInstr (classAt s 0) (classAt s 1) (classAt s 2) (classAt s 3) (lastGroup s) i := by
  obtain ⟨i, hd, hi⟩ := decode_groupCode (classAt s 0) (classAt s 1) (classAt s 2) (classAt s 3) (lastGroup s)
  refine ⟨i, unitTurn_of_fetch hb ?_ hd, hi⟩
  rw [unitFetch, decFetch, if_neg (by omega), if_pos hlt]
  rfl

theorem GroupInstr.shape (h : GroupInstr k0 k1 k2 k3 last i) :
    (∃ v0 v1 v2 v3, i = .dec4 v0 v1 v2 v3 ∧ k0 = .val v0 ∧ k1 = .val v1 ∧ k2 = .val v2 ∧ k3 = .val v3) ∨
      (∃ v0 v1 v2, i = .dec3 v0 v1 v2 ∧ last = true ∧ k0 = .val v0 ∧ k1 = .val v1 ∧ k2 = .val v2 ∧ k3 = .padc) ∨
      (∃ v0 v1, i = .dec2 v0 v1 ∧ last = true ∧ k0 = .val v0 ∧ k1 = .val v1 ∧ k2 = .padc ∧ k3 = .padc) ∨
      (i = .decGrperr k0 k1 k2 k3 last ∧ selectGroup k0 k1 k2 k3 last = .grperr) := by
  cases h with
  | dec4 v0 v1 v2 v3 => exact .inl ⟨v0, v1, v2, v3, rfl, rfl, rfl, rfl, rfl⟩
  | dec3 v0 v1 v2 => exact .inr (.inl ⟨v0, v1, v2, rfl, rfl, rfl, rfl, rfl, rfl⟩)
  | dec2 v0 v1 => exact .inr (.inr (.inl ⟨v0, v1, rfl, rfl, rfl, rfl, rfl, rfl⟩))
  | grperr h => exact .inr (.inr (.inr ⟨rfl, h⟩))

/-- Settles O24: DEC.LENFAIL, the group step for the classes, or DEC.FINISH. -/
theorem decStepIsSelectedByStateAndGroup : Obligations.DecStepIsSelectedByStateAndGroup := by
  intro s hw
  refine ⟨unitTurn_of_not_busy (u := .dec) hw, fun hb hle => ?_⟩
  by_cases h4 : s.dec.ilen % 4 = 0
  · rcases Nat.lt_or_eq_of_le hle with hlt | hl
    · obtain ⟨i, hturn, hi⟩ := turn_dec_of_lt hb h4 hlt
      exact ⟨i, hturn, fun hn => absurd h4 hn, fun _ hl => absurd hl hlt.ne, fun _ _ => hi.shape⟩
    · exact ⟨_, turn_dec_of_none_left hb h4 hl, fun hn => absurd h4 hn, fun _ _ => rfl, fun _ hlt => absurd hl hlt.ne⟩
  · exact ⟨_, turn_dec_of_badLength hb h4, fun _ => rfl, fun h => absurd h h4, fun h => absurd h h4⟩

end Sys2Proof.Machine
end

section
/-! SUPPORT. The function `decode` (42_decoder.md R110): what its checks say (R111 to R114), its padding check and its length
group by group (R125), and that it inverts `encode` (R126). -/

namespace Sys2Proof.Machine

variable {c : Config} {x : List Symbol} {c0 c1 c2 c3 : Symbol} {last : Bool}

/-! ## What the checks say (R111 to R113) -/

theorem lengthMalformed_iff : lengthMalformed x = true ↔ x.length % 4 ≠ 0 := decide_eq_true_iff

theorem symbolUnknown_iff : symbolUnknown c x = true ↔ ∃ e, e ∈ x ∧ classOf c e = .unk := by simp [symbolUnknown]

/-- `PaddingAtEnd c x`: the padding symbols of `x` are a suffix of length 0, 1 or 2 (R112). -/
def PaddingAtEnd (c : Config) (x : List Symbol) : Prop :=
  ∃ p, p ≤ 2 ∧ p ≤ x.length ∧ ∀ i, i < x.length → (x[i]? = some c.pad ↔ x.length ≤ i + p)

theorem paddingMisplaced_eq_false_iff_index :
    paddingMisplaced c x = false ↔
      ∀ i, i < x.length → x[i]? = some c.pad →
        i + 1 = x.length ∨ (i + 2 = x.length ∧ x[i + 1]? = some c.pad) := by
  simp only [paddingMisplaced, List.any_eq_false, List.mem_range, decide_eq_true_eq, not_and, not_not]

/-- The check of R110 index by index is the suffix of R112: its length is 0, 1 or 2 by what the last two symbols are. -/
theorem paddingMisplaced_eq_false_iff : paddingMisplaced c x = false ↔ PaddingAtEnd c x := by
  rw [paddingMisplaced_eq_false_iff_index]
  constructor
  · intro h
    by_cases hlast : x[x.length - 1]? = some c.pad
    · obtain ⟨hlt, -⟩ := List.getElem?_eq_some_iff.mp hlast
      by_cases hprev : 2 ≤ x.length ∧ x[x.length - 2]? = some c.pad
      · refine ⟨2, le_rfl, hprev.1, fun i hi => ⟨fun hpad => by have := h i hi hpad; omega, fun hip => ?_⟩⟩
        obtain rfl | rfl : i = x.length - 1 ∨ i = x.length - 2 := by omega
        · exact hlast
        · exact hprev.2
      · refine ⟨1, one_le_two, by omega, fun i hi => ⟨fun hpad => ?_, fun hip => ?_⟩⟩
        · obtain h1 | ⟨h2, -⟩ := h i hi hpad
          · exact h1.ge
          · exact absurd ⟨by omega, by rwa [← h2, Nat.add_sub_cancel]⟩ hprev
        · rwa [show i = x.length - 1 by omega]
    · refine ⟨0, zero_le_two, Nat.zero_le _, fun i hi => ⟨fun hpad => absurd ?_ hlast, by omega⟩⟩
      obtain h1 | ⟨h2, hnext⟩ := h i hi hpad
      · rwa [← h1, Nat.add_sub_cancel]
      · rwa [← h2]
  · rintro ⟨p, hp, -, h⟩ i hi hpad
    have hip := (h i hi).mp hpad
    by_cases hl : i + 1 = x.length
    · exact .inl hl
    · exact .inr ⟨by omega, (h (i + 1) (by omega)).mpr (by omega)⟩

/-- Settles O26: `decode` makes the three checks in their order. -/
theorem decodeReportsTheLowestFailedCheck : Obligations.DecodeReportsTheLowestFailedCheck := by
  intro c x padOk unknown
  have hlen : x.length % 4 = 0 ↔ ¬ lengthMalformed x = true := by rw [lengthMalformed_iff, not_not]
  have hpad : padOk ↔ paddingMisplaced c x = false := paddingMisplaced_eq_false_iff.symm
  have hunk : unknown ↔ symbolUnknown c x = true := symbolUnknown_iff.symm
  rw [Ne, hlen, hpad, hunk]
  unfold codecDecode
  split_ifs with h1 h2 h3
  · simp [h1]
  · simp [h1, h2]
  · simp [h1, h2, h3]
  · simp [h1, h2, h3]

/-! ## The first group and what follows it -/

/-- The class of each symbol of a group of four. -/
theorem symbolUnknown_cons₄ :
    symbolUnknown c (c0 :: c1 :: c2 :: c3 :: x) =
      (hasUnk (classOf c c0) (classOf c c1) (classOf c c2) (classOf c c3) || symbolUnknown c x) := by
  rw [Bool.eq_iff_iff]
  simp [symbolUnknown, hasUnk, isUnk_iff, or_assoc]

/-- Padding is in its place when it is legal in the first group, which is the last one when nothing follows, and in its
place in what follows. -/
theorem paddingMisplaced_cons₄_eq_false_iff (h : x.length % 4 = 0) :
    paddingMisplaced c (c0 :: c1 :: c2 :: c3 :: x) = false ↔
      padLegal (classOf c c0) (classOf c c1) (classOf c c2) (classOf c c3) x.isEmpty = true ∧
        paddingMisplaced c x = false := by
  rw [paddingMisplaced_eq_false_iff_index, paddingMisplaced_eq_false_iff_index, padLegal_iff]
  simp only [List.length_cons, Nat.forall_lt_succ_left, List.getElem?_cons_succ, List.getElem?_cons_zero, ne_eq,
    classOf_eq_padc_iff, Option.some.injEq]
  cases x with
  | nil =>
    simp
    tauto
  | cons e x =>
    have hx : x ≠ [] := by
      rintro rfl
      cases h
    simp [hx, and_assoc]

theorem paddingMisplaced_cons₄ (h : x.length % 4 = 0) :
    paddingMisplaced c (c0 :: c1 :: c2 :: c3 :: x) =
      (!padLegal (classOf c c0) (classOf c c1) (classOf c c2) (classOf c c3) x.isEmpty || paddingMisplaced c x) := by
  refine Bool.eq_iff_iff.mpr (not_iff_not.mp ?_)
  simpa using paddingMisplaced_cons₄_eq_false_iff h

/-! ## Length (R125) -/

/-- An accepted group gives three bytes, less one for each padding symbol. -/
theorem length_groupBytes_add_count
    (h : selectGroup (classOf c c0) (classOf c c1) (classOf c c2) (classOf c c3) last ≠ .grperr) :
    (groupBytes (classOf c c0) (classOf c c1) (classOf c c2) (classOf c c3)).length +
      [c0, c1, c2, c3].count c.pad = 3 := by
  have hcount : ∀ y, (y == c.pad) = isPad (classOf c y) := fun y => by
    rw [Bool.eq_iff_iff, isPad_iff, classOf_eq_padc_iff, beq_iff_eq]
  simp only [List.count_cons, hcount, List.count_nil]
  cases hs : selectGroup (classOf c c0) (classOf c c1) (classOf c c2) (classOf c c3) last with
  | dec4 =>
    obtain ⟨⟨v0, h0⟩, ⟨v1, h1⟩, ⟨v2, h2⟩, ⟨v3, h3⟩⟩ := selectGroup_dec4_iff.mp hs
    rw [h0, h1, h2, h3]
    rfl
  | dec3 =>
    obtain ⟨-, ⟨v0, h0⟩, ⟨v1, h1⟩, ⟨v2, h2⟩, h3⟩ := selectGroup_dec3_iff.mp hs
    rw [h0, h1, h2, h3]
    rfl
  | dec2 =>
    obtain ⟨-, ⟨v0, h0⟩, ⟨v1, h1⟩, h2, h3⟩ := selectGroup_dec2_iff.mp hs
    rw [h0, h1, h2, h3]
    rfl
  | grperr => exact absurd hs h

theorem length_decodeGroups_add_count (h4 : x.length % 4 = 0) (hp : paddingMisplaced c x = false)
    (hk : symbolUnknown c x = false) : (decodeGroups c x).length + x.count c.pad = 3 * (x.length / 4) := by
  induction x using decodeGroups.induct with
  | case1 c0 c1 c2 c3 x ih =>
    have hx : x.length % 4 = 0 := by simpa [Nat.add_assoc] using h4
    obtain ⟨hlegal, hp⟩ := (paddingMisplaced_cons₄_eq_false_iff hx).mp hp
    rw [symbolUnknown_cons₄, Bool.or_eq_false_iff] at hk
    obtain ⟨hunk, hk⟩ := hk
    have hgroup := length_groupBytes_add_count (selectGroup_ne_grperr_iff.mpr ⟨hlegal, hunk⟩)
    have hrest := ih hx hp hk
    have hcount : (c0 :: c1 :: c2 :: c3 :: x).count c.pad = [c0, c1, c2, c3].count c.pad + x.count c.pad :=
      List.count_append (l₁ := [c0, c1, c2, c3])
    rw [hcount, decodeGroups, List.length_append]
    simp only [List.length_cons]
    omega
  | case2 x hx =>
    match x with
    | [] => rfl
    | [_] | [_, _] | [_, _, _] => simp at h4
    | c0 :: c1 :: c2 :: c3 :: x => exact absurd rfl (hx c0 c1 c2 c3 x)

/-- A suffix of at most two symbols holds every padding symbol. -/
theorem PaddingAtEnd.count_le (h : PaddingAtEnd c x) : x.count c.pad ≤ 2 := by
  obtain ⟨p, hp, hpx, h⟩ := h
  have hfront : (x.take (x.length - p)).count c.pad = 0 := by
    refine List.count_eq_zero.mpr fun hmem => ?_
    obtain ⟨i, hi, hpad⟩ := List.mem_take_iff_getElem.mp hmem
    have := (h i (by omega)).mp (List.getElem?_eq_some_iff.mpr ⟨by omega, hpad⟩)
    omega
  have hend : (x.drop (x.length - p)).count c.pad ≤ p := List.count_le_length.trans (by simp; omega)
  rw [← List.take_append_drop (x.length - p) x, List.count_append]
  omega

/-- Settles O27: padding of at most two symbols by the second check, the length group by group. -/
theorem decodeLength : Obligations.DecodeLength := by
  intro c x y _ h
  obtain ⟨hmal, hp, hk, rfl⟩ := codecDecode_eq_ok_iff.mp h
  have h4 : x.length % 4 = 0 := by simpa [lengthMalformed] using hmal
  exact ⟨(paddingMisplaced_eq_false_iff.mp hp).count_le, length_decodeGroups_add_count h4 hp hk⟩

/-! ## `decode` inverts `encode` (R126) -/

theorem codecDecode_codecEncode (hc : c.WF) (x : List Byte) : codecDecode c (codecEncode c x) = .ok x := by
  refine codecDecode_eq_ok_iff.mpr ⟨?_, ?_, ?_, decodeGroups_codecEncode hc x⟩
  · rw [lengthMalformed, length_codecEncode, decide_eq_false_iff_not, not_not]
    exact Nat.mul_mod_right ..
  all_goals obtain ⟨vs, hvs⟩ := codecEncode_eq_withEnd c x
  · rw [hvs]
    refine paddingMisplaced_withEnd hc List.not_mem_nil ?_
    unfold padCount
    split_ifs <;> decide
  · rw [hvs, symbolUnknown_withEnd hc]
    rfl

end Sys2Proof.Machine
end

section
/-! SUPPORT. The transaction of DEC (42_decoder.md R123, R128): after each group the checks and the bytes of the whole input
are those that DEC has noted and put out, together with those of the input that is left. -/

namespace Sys2Proof.Machine

variable {s : State} {n : Nat} {c : Config} {x rest : List Symbol} {out : List Byte} {p k : Bool} {i : Instr}
  {c0 c1 c2 c3 : Symbol} {k0 k1 k2 k3 : SymClass} {last : Bool}

/-! ## One group -/

/-- The bytes that the group step for a pattern puts out: none for a group that DEC.GRPERR takes (R117 to R120). -/
def groupOut (k0 k1 k2 k3 : SymClass) (last : Bool) : List Byte :=
  if selectGroup k0 k1 k2 k3 last = .grperr then [] else groupBytes k0 k1 k2 k3

theorem groupOut_of_accepted (h : selectGroup k0 k1 k2 k3 last ≠ .grperr) :
    groupOut k0 k1 k2 k3 last = groupBytes k0 k1 k2 k3 := if_neg h

theorem groupOut_of_grperr (h : selectGroup k0 k1 k2 k3 last = .grperr) : groupOut k0 k1 k2 k3 last = [] := if_pos h

theorem length_groupBytes_le (k0 k1 k2 k3 : SymClass) : (groupBytes k0 k1 k2 k3).length ≤ 3 := by
  unfold groupBytes
  split <;> simp

theorem length_groupOut_le (k0 k1 k2 k3 : SymClass) (last : Bool) : (groupOut k0 k1 k2 k3 last).length ≤ 3 := by
  unfold groupOut
  split_ifs
  · exact Nat.zero_le 3
  · exact length_groupBytes_le ..

theorem decGroup_of_accepted {b : Bool} (h : selectGroup k0 k1 k2 k3 last ≠ .grperr) :
    decGroup b (groupOut k0 k1 k2 k3 last) (nextPaderr s.paderr k0 k1 k2 k3 last)
      (nextUnkerr s.unkerr k0 k1 k2 k3) s = decGroup b (groupBytes k0 k1 k2 k3) s.paderr s.unkerr s := by
  obtain ⟨hp, hk⟩ := flags_of_accepted h s.paderr s.unkerr
  rw [groupOut_of_accepted h, hp, hk]

/-- The four group steps as one: the bytes and the flags are those of the pattern. -/
theorem exec_groupInstr (h : GroupInstr k0 k1 k2 k3 last i) (hen : decGroupEnabled s = true) (hl : lastGroup s = last) :
    exec i s = decGroup true (groupOut k0 k1 k2 k3 last) (nextPaderr s.paderr k0 k1 k2 k3 last)
      (nextUnkerr s.unkerr k0 k1 k2 k3) s := by
  cases h with
  | dec4 v0 v1 v2 v3 =>
    rw [decGroup_of_accepted, exec, execDec4, hen]
    · rfl
    · nofun
  | dec3 v0 v1 v2 =>
    rw [decGroup_of_accepted, exec, execDec3, hen, hl]
    · rfl
    · nofun
  | dec2 v0 v1 =>
    rw [decGroup_of_accepted, exec, execDec2, hen, hl]
    · rfl
    · nofun
  | grperr h => rw [groupOut_of_grperr h, exec, execDecGrperr, decGrperr_enabled hen hl h]

/-- While input is left, the next group fits both buffers (R23). -/
theorem DecInv.room (h : DecInv s) (hb : s.dec.st = .busy) (h4 : s.dec.ilen % 4 = 0) (hlt : s.dec.rp < s.dec.ilen) :
    s.dec.rp + 4 ≤ ibufSize s.cfg .dec ∧ s.dec.wp + 3 ≤ obufSize s.cfg .dec := by
  have hr := h.busyRead hb h4
  have hwp := h.busyWritten hb h4
  have hf : s.dec.ilen < 2 ^ (s.cfg.lenW + 1) := h.ilenFits
  rw [ibufSize, obufSize, ilenWidth]
  omega

/-- While input is left, a turn of DEC reads the next group, writes its bytes and notes its errors. -/
theorem turn_dec_group (hi : Inv s) (hb : s.dec.st = .busy) (h4 : s.dec.ilen % 4 = 0) (hlt : s.dec.rp < s.dec.ilen) :
    turn .dec s = .next { s with
      dec := s.dec.moved 4 (groupOut (classAt s 0) (classAt s 1) (classAt s 2) (classAt s 3) (lastGroup s))
      paderr := nextPaderr s.paderr (classAt s 0) (classAt s 1) (classAt s 2) (classAt s 3) (lastGroup s)
      unkerr := nextUnkerr s.unkerr (classAt s 0) (classAt s 1) (classAt s 2) (classAt s 3) } := by
  obtain ⟨i, hturn, hg⟩ := turn_dec_of_lt hb h4 hlt
  obtain ⟨hin, hout⟩ := hi.dec.room hb h4 hlt
  rw [hturn, exec_groupInstr hg (decGroupEnabled_iff.mpr ⟨hb, h4, hlt⟩) rfl]
  exact decGroup_next.mpr ⟨hi.config, rfl, hin, (Nat.add_le_add_left (length_groupOut_le ..) _).trans hout, rfl⟩

/-! ## What has been read and what is left -/

/-- `DecodedSoFar c x rest out p k`: of the input `x` the part `rest` is left to read; `out` are the bytes of what has been
read, which count as long as no flag is set, and `p` and `k` say whether checks 2 and 3 have failed in it. -/
structure DecodedSoFar (c : Config) (x rest : List Symbol) (out : List Byte) (p k : Bool) : Prop where
  padding : paddingMisplaced c x = (p || paddingMisplaced c rest)
  unknown : symbolUnknown c x = (k || symbolUnknown c rest)
  bytes : p = false → k = false → decodeGroups c x = out ++ decodeGroups c rest

theorem DecodedSoFar.start (c : Config) (x : List Symbol) : DecodedSoFar c x x [] false false :=
  ⟨rfl, rfl, fun _ _ => rfl⟩

/-- One more group. -/
theorem DecodedSoFar.group (h : DecodedSoFar c x (c0 :: c1 :: c2 :: c3 :: rest) out p k) (h4 : rest.length % 4 = 0)
    (h0 : classOf c c0 = k0) (h1 : classOf c c1 = k1) (h2 : classOf c c2 = k2) (h3 : classOf c c3 = k3)
    (hlast : rest.isEmpty = last) :
    DecodedSoFar c x rest (out ++ groupOut k0 k1 k2 k3 last) (nextPaderr p k0 k1 k2 k3 last)
      (nextUnkerr k k0 k1 k2 k3) := by
  subst h0 h1 h2 h3 hlast
  refine ⟨?_, ?_, fun hp hk => ?_⟩
  · rw [h.padding, paddingMisplaced_cons₄ h4, nextPaderr, Bool.or_assoc]
  · rw [h.unknown, symbolUnknown_cons₄, nextUnkerr, Bool.or_assoc]
  · rw [nextPaderr, Bool.or_eq_false_iff, Bool.not_eq_false'] at hp
    rw [nextUnkerr, Bool.or_eq_false_iff] at hk
    rw [h.bytes hp.1 hk.1, decodeGroups, groupOut_of_accepted (selectGroup_ne_grperr_iff.mpr ⟨hp.2, hk.2⟩),
      List.append_assoc]

/-- With nothing left, the flags and the bytes are the outcome of `decode`. -/
theorem DecodedSoFar.outcome (h : DecodedSoFar c x [] out p k) (h4 : x.length % 4 = 0) :
    codecDecode c x = if p then .error .misplacedPadding else if k then .error .unknownSymbol else .ok out := by
  have hlen : lengthMalformed x = false := decide_eq_false (not_not.mpr h4)
  have hp : paddingMisplaced c x = p := h.padding.trans (Bool.or_false p)
  have hk : symbolUnknown c x = k := h.unknown.trans (Bool.or_false k)
  rw [codecDecode, hlen, hp, hk, if_neg Bool.false_ne_true]
  split_ifs with hp hk
  · rfl
  · rfl
  · have hbytes := h.bytes (Bool.eq_false_of_not_eq_true hp) (Bool.eq_false_of_not_eq_true hk)
    exact congrArg Except.ok (hbytes.trans (List.append_nil out))

/-! ## All groups -/

/-- The state in which DEC, started in `s`, has read the first `n` symbols of its input, put out `out` and noted `p` and
`k` in its flags. -/
def decodingAt (s : State) (n : Nat) (out : List Byte) (p k : Bool) : State :=
  { s with dec := s.dec.started.moved n out, paderr := p, unkerr := k }

theorem decodingAt_zero (s : State) :
    decodingAt s 0 [] false false = { s with dec := s.dec.started, paderr := false, unkerr := false } := rfl

/-- The input of DEC from the index `n` on. -/
def inputFrom (s : State) (n : Nat) : List Symbol := memRead s .dec n (s.dec.ilen - n)

theorem inputFrom_zero (s : State) : inputFrom s 0 = inputOf s .dec := rfl

theorem inputFrom_ilen (s : State) : inputFrom s s.dec.ilen = [] := by rw [inputFrom, Nat.sub_self]; rfl

theorem length_inputFrom (s : State) (n : Nat) : (inputFrom s n).length = s.dec.ilen - n := length_memRead ..

theorem inputFrom_of_group (h : n + 4 ≤ s.dec.ilen) :
    inputFrom s n = readInput s .dec n :: readInput s .dec (n + 1) :: readInput s .dec (n + 2) ::
      readInput s .dec (n + 3) :: inputFrom s (n + 4) := by
  rw [inputFrom, show s.dec.ilen - n = 4 + (s.dec.ilen - (n + 4)) by omega, memRead_add]
  rfl

theorem decodingAt_moved (g : List Byte) (p' k' : Bool) :
    { decodingAt s n out p k with
      dec := (decodingAt s n out p k).dec.moved 4 g, paderr := p', unkerr := k' } =
      decodingAt s (n + 4) (out ++ g) p' k' := by
  simp only [decodingAt, CodecUnit.moved_moved]

/-- `Decoding s n v`: in the state `v` DEC, started in `s`, has read the first `n` symbols of its input. -/
def Decoding (s : State) (n : Nat) (v : State) : Prop :=
  ∃ out p k, v = decodingAt s n out p k ∧ Inv v ∧ DecodedSoFar s.cfg (inputOf s .dec) (inputFrom s n) out p k

theorem Decoding.start (hi : Inv s) : Decoding s 0 (decodingAt s 0 [] false false) :=
  ⟨[], false, false, rfl, ⟨hi.config, hi.enc.of_eq rfl rfl, hi.dec.started false false⟩,
    by rw [inputFrom_zero]; exact .start ..⟩

theorem Decoding.busy {v : State} (h : Decoding s n v) : v.dec.st = .busy := by
  obtain ⟨out, p, k, rfl, -, -⟩ := h
  rfl

/-- While symbols are left, a turn of DEC goes on to the end of the next group. -/
theorem Decoding.next_group {v : State} (h : Decoding s n v) (h4 : s.dec.ilen % 4 = 0) (hn : n % 4 = 0)
    (hlt : n < s.dec.ilen) : ∃ w, turn .dec v = .next w ∧ Decoding s (n + 4) w := by
  obtain ⟨out, p, k, rfl, hi, hsofar⟩ := h
  have hend : n + 4 ≤ s.dec.ilen := by omega
  have hrp : (decodingAt s n out p k).dec.rp = n := Nat.zero_add n
  have hclass : ∀ j, classOf s.cfg (readInput s .dec (n + j)) = classAt (decodingAt s n out p k) j := fun j => by
    rw [classAt, hrp]
    rfl
  have hlast : (inputFrom s (n + 4)).isEmpty = lastGroup (decodingAt s n out p k) := by
    have hilen : (decodingAt s n out p k).dec.ilen = s.dec.ilen := rfl
    rw [Bool.eq_iff_iff, List.isEmpty_iff_length_eq_zero, length_inputFrom, lastGroup_iff, hrp, hilen]
    omega
  have hturn := turn_dec_group hi rfl h4 (by rw [hrp]; exact hlt)
  have hrest : (inputFrom s (n + 4)).length % 4 = 0 := by
    rw [length_inputFrom]
    omega
  rw [inputFrom_of_group hend] at hsofar
  exact ⟨_, hturn, _, _, _, decodingAt_moved .., turn_inv hturn hi,
    hsofar.group hrest (hclass 0) (hclass 1) (hclass 2) (hclass 3) hlast⟩

/-- After START, `j` turns of DEC take `j` groups. -/
theorem manyTurns_dec (hi : Inv s) (h4 : s.dec.ilen % 4 = 0) {j : Nat} (hj : 4 * j ≤ s.dec.ilen) :
    ∃ v, manyTurns .dec j (decodingAt s 0 [] false false) = .next v ∧ Decoding s (4 * j) v := by
  induction j with
  | zero => exact ⟨_, rfl, .start hi⟩
  | succ j ih =>
    obtain ⟨v, hrun, hv⟩ := ih (by omega)
    obtain ⟨w, hturn, hw⟩ := hv.next_group h4 (Nat.mul_mod_right 4 j) (by omega)
    exact ⟨w, (manyTurns_succ hrun).trans hturn, hw⟩

/-! ## The end of the transaction (R123, R128) -/

/-- `ReportsDecode s t`: in `t` DEC is DONE with the outcome of `decode` of its input in `s`, and nothing outside DEC has
changed. -/
def ReportsDecode (s t : State) : Prop :=
  t.dec.st = .done ∧
    (∀ e, codecDecode s.cfg (inputOf s .dec) = .error e → t.dec.err = some e ∧ t.dec.olen = 0) ∧
    (∀ y, codecDecode s.cfg (inputOf s .dec) = .ok y →
      t.dec.err = none ∧ t.dec.olen = y.length ∧ holdsOutput t.dec y) ∧
    t.dec.ibuf = s.dec.ibuf ∧ t.dec.ilen = s.dec.ilen ∧
    t = { s with dec := t.dec, paderr := t.paderr, unkerr := t.unkerr }

theorem reportsDecode_of_error {e : DecErr} (h : codecDecode s.cfg (inputOf s .dec) = .error e) :
    ReportsDecode s (raiseDecodeError e (decodingAt s n out p k)) := by
  refine ⟨rfl, fun e' he => ?_, fun y hy => ?_, rfl, rfl, rfl⟩
  · cases h.symm.trans he
    exact ⟨rfl, rfl⟩
  · cases h.symm.trans hy

theorem reportsDecode_of_ok (h : codecDecode s.cfg (inputOf s .dec) = .ok out) :
    ReportsDecode s { decodingAt s n out p k with
      dec := (decodingAt s n out p k).dec.finished (decodingAt s n out p k).dec.wp none } := by
  refine ⟨rfl, fun e he => ?_, fun y hy => ?_, rfl, rfl, rfl⟩
  · cases h.symm.trans he
  · cases h.symm.trans hy
    refine ⟨rfl, Nat.zero_add _, fun i hlt => ?_⟩
    have hread := s.dec.started.read_moved_add n hlt
    rwa [CodecUnit.started_wp, Nat.zero_add] at hread

/-- With no symbol left, DEC.FINISH reports the outcome. -/
theorem Decoding.finish {v : State} (h : Decoding s s.dec.ilen v) (h4 : s.dec.ilen % 4 = 0) :
    ∃ t, turn .dec v = .next t ∧ ReportsDecode s t := by
  obtain ⟨out, p, k, rfl, hi, hsofar⟩ := h
  have hrp : (decodingAt s s.dec.ilen out p k).dec.rp = s.dec.ilen := Nat.zero_add _
  have hturn : turn .dec (decodingAt s s.dec.ilen out p k) = exec .decFinish (decodingAt s s.dec.ilen out p k) :=
    turn_dec_of_none_left rfl h4 hrp
  rw [inputFrom_ilen] at hsofar
  have hout := hsofar.outcome (by rw [inputOf, length_memRead]; exact h4)
  refine ⟨_, hturn.trans (exec_decFinish_next.mpr ⟨hi.config, ⟨rfl, h4, hrp⟩, rfl⟩), ?_⟩
  cases p with
  | true => exact reportsDecode_of_error hout
  | false =>
    cases k with
    | true => exact reportsDecode_of_error hout
    | false => exact reportsDecode_of_ok hout

/-- The transaction of DEC on whole groups: `ILEN div 4` groups, then DEC.FINISH (R128). -/
theorem manyTurns_dec_finish (hi : Inv s) (h4 : s.dec.ilen % 4 = 0) :
    ∃ t, manyTurns .dec (s.dec.ilen / 4 + 1) (decodingAt s 0 [] false false) = .next t ∧ ReportsDecode s t := by
  obtain ⟨v, hrun, hv⟩ := manyTurns_dec hi h4 (j := s.dec.ilen / 4) (by omega)
  rw [Nat.mul_div_cancel' (Nat.dvd_of_mod_eq_zero h4)] at hv
  obtain ⟨t, hturn, ht⟩ := hv.finish h4
  exact ⟨t, (manyTurns_succ hrun).trans hturn, ht⟩

/-- The transaction of DEC on a bad length: DEC.LENFAIL alone (R116, R128). -/
theorem manyTurns_dec_lenfail (hw : s.cfg.WF) (h4 : s.dec.ilen % 4 ≠ 0) :
    ∃ t, manyTurns .dec 1 (decodingAt s 0 [] false false) = .next t ∧ ReportsDecode s t := by
  have hturn : turn .dec (decodingAt s 0 [] false false) = exec .decLenfail (decodingAt s 0 [] false false) :=
    turn_dec_of_badLength rfl h4
  have hmal : lengthMalformed (inputOf s .dec) = true := lengthMalformed_iff.mpr (by rwa [inputOf, length_memRead])
  exact ⟨_, (manyTurns_succ rfl).trans (hturn.trans (exec_decLenfail hw rfl h4)), reportsDecode_of_error (if_pos hmal)⟩

/-- Settles O30: each turn takes one more group (`manyTurns_dec`), after which DEC.FINISH reports what has been noted; on a
bad length DEC.LENFAIL is the only turn. -/
theorem decTransactionComputesDecode : Obligations.DecTransactionComputesDecode := by
  intro s hi hb
  refine ⟨decodingAt s 0 [] false false, by rw [exec_decStart hi.config, startUnit_dec hb, decodingAt_zero], ?_⟩
  by_cases h4 : s.dec.ilen % 4 = 0
  · rw [decSteps, if_pos h4]
    refine ⟨fun j hj => ?_, manyTurns_dec_finish hi h4⟩
    obtain ⟨v, hrun, hv⟩ := manyTurns_dec hi h4 (j := j) (by omega)
    exact ⟨v, hrun, hv.busy⟩
  · rw [decSteps, if_neg h4]
    refine ⟨fun j hj => ?_, manyTurns_dec_lenfail hi.config h4⟩
    obtain rfl : j = 0 := by omega
    exact ⟨_, rfl, rfl⟩

/-! ## DEC on what ENC has put out (R126) -/

/-- Settles O28: the function by `codecDecode_codecEncode`, the unit by its transaction, and the widths are equal. -/
theorem decodeInvertsEncode : Obligations.DecodeInvertsEncode := by
  refine ⟨fun c x hc => codecDecode_codecEncode hc x, fun s x hi hb hx => ?_, fun s hi => hi.enc.olenFits⟩
  obtain ⟨u, hstart, -, t, hrun, hst, -, hok, -⟩ := decTransactionComputesDecode s hi hb
  exact ⟨u, t, hstart, hrun, hst, hok x (hx ▸ codecDecode_codecEncode hi.config x)⟩

end Sys2Proof.Machine
end

section
/-! SUPPORT. The host's accesses (43_host_interface.md R141 to R148): what each answers, once for each access, and what no
operation but a write of the element does to an input element. -/

namespace Sys2Proof.Machine

variable {s t : State} {u w : UnitId} {j : Instr} {i n : Nat} {e d : BitVec 8}

/-! ## Writes and START (R141 to R143) -/

theorem hostAccess_of_exists {p : Place} {r : Res} (hw : s.cfg.WF) (hp : placeExists s.cfg u p = true) :
    hostAccess u p s r = r := by
  rw [hostAccess, underConfig_of_wf hw, if_pos hp]

theorem placeExists_ibuf (hi : i < ibufSize s.cfg u) : placeExists s.cfg u (.ibuf i) = true := decide_eq_true hi

theorem placeExists_obuf (hi : i < obufSize s.cfg u) : placeExists s.cfg u (.obuf i) = true := decide_eq_true hi

theorem exec_hWrIbuf_of_busy (hw : s.cfg.WF) (hi : i < ibufSize s.cfg u) (hb : (s.unit u).st = .busy) :
    exec (.hWrIbuf u i e) s = .next s := by
  rw [exec, execHWrIbuf, hostAccess_of_exists hw (placeExists_ibuf hi), if_pos hb]

theorem exec_hWrIbuf (hw : s.cfg.WF) (hi : i < ibufSize s.cfg u) (hb : (s.unit u).st ≠ .busy) :
    exec (.hWrIbuf u i e) s = .next (s.setUnit u { s.unit u with ibuf := (s.unit u).ibuf.write i e }) := by
  rw [exec, execHWrIbuf, hostAccess_of_exists hw (placeExists_ibuf hi), if_neg hb]

/-- Settles O33, by the two cases of the status and the law of a read after a write. -/
theorem hostWritesAnInputElement : Obligations.HostWritesAnInputElement := by
  refine fun s u i e hw hi => ⟨exec_hWrIbuf_of_busy hw hi, fun hb => ⟨_, exec_hWrIbuf hw hi hb, ?_⟩⟩
  rw [State.setUnit_unit]
  exact ⟨Memory.read_write_same .., fun _ => Memory.read_write_ne _ _, rfl⟩

theorem exec_hWrIlen (hw : s.cfg.WF) (hn : n < 2 ^ ilenWidth s.cfg u) :
    exec (.hWrIlen u n) s =
      .next (if (s.unit u).st = .busy then s else s.setUnit u { s.unit u with ilen := n }) := by
  rw [exec, execHWrIlen, underConfig_of_wf hw, if_pos hn]

/-- Settles O34, by `exec_hWrIlen`. -/
theorem hostSetsTheInputLength : Obligations.HostSetsTheInputLength := fun _ _ _ => exec_hWrIlen

theorem exec_hStart (hw : s.cfg.WF) : exec (.hStart u e) s = .next (if e.getLsbD 0 then startUnit u s else s) :=
  underConfig_of_wf hw

/-- Settles O35: with bit 0 = 1 both are the START of the unit. -/
theorem hostStartIsTheUnitsStart : Obligations.HostStartIsTheUnitsStart := by
  intro s d hw
  refine ⟨fun hd => ?_, fun hd => ?_, fun u => ⟨_, exec_hStart hw⟩⟩
  · rw [exec_hStart hw, exec_hStart hw, if_pos hd, if_pos hd, exec_encStart hw, exec_decStart hw]
    exact ⟨rfl, rfl⟩
  · rw [exec_hStart hw, exec_hStart hw, hd]
    exact ⟨rfl, rfl⟩

/-! ## Reads of the registers (R144, R145, R147) -/

theorem exec_hRdStatus (hw : s.cfg.WF) :
    exec (.hRdStatus u) s = .next (s.answering (.reg8 (statusByte (s.unit u)))) := underConfig_of_wf hw

/-- The fields of STATUS (10_state.md R21). -/
theorem slices_statusByte (x : CodecUnit) :
    slice 0 2 (statusByte x) = stBits x.st ∧ slice 2 2 (statusByte x) = errBits x.err ∧
      slice 4 4 (statusByte x) = 0#4 := by
  have hfields : ∀ a b : BitVec 2, slice 0 2 ((a ++ b).setWidth 8) = b ∧ slice 2 2 ((a ++ b).setWidth 8) = a ∧
      slice 4 4 ((a ++ b).setWidth 8) = 0#4 := by decide
  exact hfields (errBits x.err) (stBits x.st)

/-- The code of an error gives the error back (60_exceptions.md R161). -/
theorem errOfBits_errBits (o : Option DecErr) : errOfBits (errBits o) = o := by
  cases o with
  | none => rfl
  | some k => cases k <;> rfl

theorem statusByte_of_no_error {x : CodecUnit} (h : x.err = none) : statusByte x = (0#2 ++ stBits x.st).setWidth 8 := by
  rw [statusByte, h]
  rfl

/-- ENC has no error, and DEC has one only when DONE (R26 (b), (d)). -/
theorem Inv.err_cases (hi : Inv s) (u : UnitId) :
    (s.unit u).err = none ∨ u = .dec ∧ (s.unit u).st = .done ∧ (s.unit u).err ≠ none := by
  cases u with
  | enc => exact .inl hi.enc.errOk
  | dec =>
    by_cases h : s.dec.err = none
    · exact .inl h
    · exact .inr ⟨rfl, (hi.dec.errOnlyDone h).1, h⟩

/-- Settles O36: the fields by `slices_statusByte`, the values because an error is found in DEC alone and only when DONE. -/
theorem hostReadsTheStatus : Obligations.HostReadsTheStatus := by
  intro s u hw
  obtain ⟨hst, herr, hzero⟩ := slices_statusByte (s.unit u)
  refine ⟨_, exec_hRdStatus hw, ?_, ?_, hzero, fun hi => ?_⟩
  · rw [hst]
    rfl
  · rw [herr]
    rfl
  · rcases hi.err_cases u with hnone | ⟨rfl, hdone, hsome⟩
    · rw [statusByte_of_no_error hnone]
      cases (s.unit u).st <;> simp [stBits]
    · rw [statusByte, hdone]
      cases he : (s.unit .dec).err with
      | none => exact absurd he hsome
      | some k => cases k <;> simp [stBits, errBits]

theorem exec_hRdOlen (hw : s.cfg.WF) (hb : (s.unit u).st ≠ .busy) :
    exec (.hRdOlen u) s = .next (s.answering (.len (s.unit u).olen)) := by
  rw [exec, execHRdOlen, underConfig_of_wf hw, if_neg hb]

theorem exec_hRdOlen_of_busy (hw : s.cfg.WF) (hb : (s.unit u).st = .busy) :
    exec (.hRdOlen u) s =
      .next ((s.answering (.len (Config.freeLen s.freeCount % 2 ^ olenWidth s.cfg))).useFree) := by
  rw [exec, execHRdOlen, underConfig_of_wf hw, if_pos hb]

/-- Settles O37: while BUSY the answer is cut to the width of the register. -/
theorem hostReadsTheOutputLength : Obligations.HostReadsTheOutputLength := fun _ _ hw =>
  ⟨exec_hRdOlen hw, fun hb => ⟨_, Nat.mod_lt _ (Nat.two_pow_pos _), exec_hRdOlen_of_busy hw hb⟩⟩

theorem exec_hRdIlen (hw : s.cfg.WF) : exec (.hRdIlen u) s = .next (s.answering (.len (s.unit u).ilen)) :=
  underConfig_of_wf hw

/-! ## Reads of the result (R146) -/

theorem exec_hRdObuf (hw : s.cfg.WF) (hi : i < obufSize s.cfg u) (hd : (s.unit u).st = .done)
    (hlt : i < (s.unit u).olen) (he : (s.unit u).obuf.read i = some e) :
    exec (.hRdObuf u i) s = .next (s.answering (.elem e)) := by
  have hres : resultElem s u i = some e := (if_pos ⟨hd, hlt⟩).trans he
  rw [exec, execHRdObuf, hostAccess_of_exists hw (placeExists_obuf hi), hres]

theorem exec_hRdObuf_of_no_result (hw : s.cfg.WF) (hi : i < obufSize s.cfg u) (h : resultElem s u i = none) :
    exec (.hRdObuf u i) s = .next ((s.answering (.elem (Config.freeElem s.freeCount))).useFree) := by
  rw [exec, execHRdObuf, hostAccess_of_exists hw (placeExists_obuf hi), h]

/-- Every element of a result has been written (20_memory.md R54). -/
theorem Inv.doneOutput (hi : Inv s) (u : UnitId) (hd : (s.unit u).st = .done) (hlt : i < (s.unit u).olen) :
    ((s.unit u).obuf.read i).isSome := by
  cases u with
  | enc => exact hi.enc.doneOutput hd i hlt
  | dec => exact hi.dec.doneOutput hd i hlt

/-- Settles O38, by whether the index lies in the result. -/
theorem hostReadsAnOutputElement : Obligations.HostReadsAnOutputElement := fun _ u _ hw hi =>
  ⟨fun _ => exec_hRdObuf hw hi, fun hinv hd hlt => Option.isSome_iff_exists.mp (hinv.doneOutput u hd hlt),
    fun hn => ⟨_, exec_hRdObuf_of_no_result hw hi (if_neg hn)⟩⟩

/-! ## Reads of the input (R147) -/

theorem exec_hRdIbuf (hw : s.cfg.WF) (hi : i < ibufSize s.cfg u) :
    exec (.hRdIbuf u i) s = .next (s.answering (.elem (readInput s u i))) :=
  hostAccess_of_exists hw (placeExists_ibuf hi)

theorem readInput_of_written (h : (s.unit u).ibuf.read i = some d) : readInput s u i = d := by rw [readInput, h]

/-- No change of CORE counts a reset. -/
theorem Change.resets (h : Change s t) : t.resets = s.resets := by
  cases h with
  | writeInput _ _ _ _ _ h | writeLength _ _ _ _ h => rw [h, State.setUnit_resets]
  | decFinish _ _ _ h =>
    obtain ⟨n, e, hd⟩ := decFinished_eq s
    rw [h, hd]
  | none h | startEnc _ h | startDec _ h | encGroup _ _ _ _ _ _ _ _ h | encFinish _ _ h | decLenfail _ _ h
  | decGroup _ _ _ _ _ _ _ _ _ _ _ h => subst h; rfl

theorem ChangesCore.resets (h : ChangesCore s t) : t.resets = s.resets :=
  let ⟨_, hv, hs⟩ := h
  hs.resets.trans hv.resets

theorem startUnit_ibuf (u w : UnitId) (s : State) : ((startUnit u s).unit w).ibuf = (s.unit w).ibuf := by
  by_cases hb : (s.unit u).st = .busy
  · rw [startUnit_busy hb]
  · cases u
    · rw [startUnit_enc hb]
      cases w <;> rfl
    · rw [startUnit_dec hb]
      cases w <;> rfl

theorem withUnitOf_unit_same (u : UnitId) (s d : State) : (withUnitOf u s d).unit u = d.unit u := by cases u <;> rfl

/-- No operation but a write of one of its elements changes the input buffer of a unit. -/
theorem exec_ibuf (h : exec j s = .next t) (hj : ∀ i e, j ≠ .hWrIbuf u i e) : (t.unit u).ibuf = (s.unit u).ibuf := by
  by_cases hu : unitOf j = some u
  · cases j
    case hWrIbuf i e =>
      cases hu
      exact absurd rfl (hj i e)
    case hWrIlen n =>
      cases hu
      obtain ⟨-, h⟩ := underConfig_next.mp h
      split_ifs at h <;> cases h
      · rfl
      · rw [State.setUnit_unit]
    case hStart d =>
      obtain ⟨-, h⟩ := underConfig_next.mp h
      split_ifs at h <;> cases h
      · exact startUnit_ibuf ..
      · rfl
    case encStart | decStart =>
      obtain ⟨-, h⟩ := underConfig_next.mp h
      cases h
      exact startUnit_ibuf ..
    case enc3 | enc2 | enc1 =>
      cases hu
      obtain ⟨-, -, -, -, rfl⟩ := encGroup_next.mp h
      rfl
    case dec4 | dec3 | dec2 | decGrperr =>
      cases hu
      obtain ⟨-, -, -, -, rfl⟩ := decGroup_next.mp h
      rfl
    case encFinish | decLenfail =>
      cases hu
      obtain ⟨-, -, rfl⟩ := finishing_next.mp h
      rfl
    case decFinish =>
      cases hu
      obtain ⟨-, -, rfl⟩ := finishing_next.mp h
      obtain ⟨n, e, hd⟩ := decFinished_eq s
      rw [hd]
      rfl
    case hRdStatus | hRdIlen =>
      obtain ⟨-, rfl⟩ := answerWith_next.mp h
      rw [State.answering_unit]
    case hRdIbuf =>
      obtain ⟨-, -, h⟩ := hostAccess_next.mp h
      cases h
      rw [State.answering_unit]
    case hRdOlen =>
      obtain ⟨-, h⟩ := underConfig_next.mp h
      split_ifs at h <;> cases h <;> simp
    case hRdObuf i =>
      obtain ⟨-, -, h⟩ := hostAccess_next.mp h
      split at h <;> cases h <;> simp
    all_goals cases hu
  · rw [← (exec_beside j u hu).frame h, withUnitOf_unit_same]

/-- An input element keeps its value until it is written (R147; 10_state.md R25). -/
theorem exec_readInput (h : exec j s = .next t) (hj : ∀ d, j ≠ .hWrIbuf u i d) : readInput t u i = readInput s u i := by
  have hread : (t.unit u).ibuf.read i = (s.unit u).ibuf.read i := by
    by_cases hwrite : ∃ k e, j = .hWrIbuf u k e
    · obtain ⟨k, e, rfl⟩ := hwrite
      have hne : i ≠ k := fun hk => hj e (hk ▸ rfl)
      obtain ⟨-, -, h⟩ := hostAccess_next.mp h
      split_ifs at h <;> cases h
      · rfl
      · rw [State.setUnit_unit]
        exact Memory.read_write_ne _ _ hne
    · rw [exec_ibuf h fun k e hk => hwrite ⟨k, e, hk⟩]
  rw [readInput, readInput, hread, (exec_core j h).resets]

/-- Settles O39, by `exec_readInput`. -/
theorem hostReadsBackTheInput : Obligations.HostReadsBackTheInput := by
  refine fun s u hw => ⟨exec_hRdIlen hw, fun i hi => ⟨_, exec_hRdIbuf hw hi, fun d => readInput_of_written, ?_⟩⟩
  intro j t h hj
  have hcfg : t.cfg = s.cfg := (exec_core j h).cfg
  rw [exec_hRdIbuf (hcfg ▸ hw) (hcfg ▸ hi), exec_readInput h hj]

/-! ## Accesses to a BUSY unit (R148) -/

/-- Replacing a unit as in `withUnitOf`, in a state whose flags are those of `s`. -/
theorem withUnitOf_setUnit_same {x : CodecUnit} (h : withUnitOf u t s = t) :
    withUnitOf u t (s.setUnit u x) = t.setUnit u x := by
  rw [← h]
  cases u <;> rfl

/-- An operation that does not belong to a unit has its effect whatever that unit holds. -/
theorem exec_setUnit (hj : unitOf j ≠ some u) (x : CodecUnit) :
    exec j (s.setUnit u x) = mapNext (fun t => t.setUnit u x) (exec j s) := by
  have hbeside := exec_beside j u hj
  rw [← withUnitOf_setUnit_same (withUnitOf_self u s), hbeside]
  cases h : exec j s with
  | next t => exact congrArg Host.Outcome.next (withUnitOf_setUnit_same (hbeside.frame h))
  | fault r => rfl
  | refused r => rfl

/-- Settles O40: the writes by their cases, the reads as in every state, and the other unit's operations by
`exec_setUnit`. -/
theorem busyUnitIgnoresWrites : Obligations.BusyUnitIgnoresWrites := by
  intro s u hw hb
  refine ⟨fun i e hi => exec_hWrIbuf_of_busy hw hi hb, fun n hn => ?_, fun d => ?_, exec_hRdStatus hw, exec_hRdIlen hw,
    fun i d hi hd => ?_, fun j x hj => exec_setUnit ?_ x⟩
  · rw [exec_hWrIlen hw hn, if_pos hb]
  · rw [exec_hStart hw, startUnit_busy hb, ite_self]
  · rw [exec_hRdIbuf hw hi, readInput_of_written hd]
  · obtain ⟨w, hjw, hne⟩ := hj
    rw [hjw]
    exact mt Option.some.inj hne

/-! ## The pseudo-operations (R151, R152) -/

/-- What the two expansions have in common: the accesses of unit `u` on the input `x`, and the line `l` that stands for the
reads still to come. -/
def expansion (u : UnitId) (x : List (BitVec 8)) (l : Line) : List Line :=
  loadLines u 0 x ++ [.op (.write u (.reg 2) x.length), .op (.write u (.reg 0) 1), .poll u, l]

theorem length_loadLines (u : UnitId) (i : Nat) (x : List (BitVec 8)) : (loadLines u i x).length = x.length := by
  induction x generalizing i with
  | nil => rfl
  | cons e x ih => rw [loadLines, List.length_cons, ih, List.length_cons]

theorem getElem?_loadLines (u : UnitId) (i k : Nat) (x : List (BitVec 8)) :
    (loadLines u i x)[k]? = x[k]?.map fun e => .op (encode (.hWrIbuf u (i + k) e)) := by
  induction x generalizing i k with
  | nil => rfl
  | cons e x ih =>
    cases k with
    | zero => rfl
    | succ k => rw [loadLines, List.getElem?_cons_succ, ih, List.getElem?_cons_succ, Nat.succ_add_eq_add_succ]

/-- The lines of an expansion, one by one. -/
theorem expansion_lines (u : UnitId) (x : List (BitVec 8)) (l : Line) :
    (expansion u x l).length = x.length + 4 ∧
      (∀ i e, x[i]? = some e → (expansion u x l)[i]? = some (Line.op (encode (.hWrIbuf u i e)))) ∧
      (expansion u x l)[x.length]? = some (Line.op (encode (.hWrIlen u x.length))) ∧
      (expansion u x l)[x.length + 1]? = some (Line.op (encode (.hStart u 0x01#8))) ∧
      (expansion u x l)[x.length + 2]? = some (Line.poll u) ∧ (expansion u x l)[x.length + 3]? = some l := by
  have hafter : ∀ k, (expansion u x l)[x.length + k]? =
      ([.op (.write u (.reg 2) x.length), .op (.write u (.reg 0) 1), .poll u, l] : List Line)[k]? := fun k => by
    rw [expansion, List.getElem?_append_right (by rw [length_loadLines]; omega), length_loadLines,
      Nat.add_sub_cancel_left]
  refine ⟨?_, fun i e he => ?_, hafter 0, hafter 1, hafter 2, hafter 3⟩
  · rw [expansion, List.length_append, length_loadLines]
    rfl
  · obtain ⟨hlt, -⟩ := List.getElem?_eq_some_iff.mp he
    rw [expansion, List.getElem?_append_left (by rwa [length_loadLines]), getElem?_loadLines, he, Nat.zero_add]
    rfl

theorem exec_pEncode {x : List Byte} (hw : s.cfg.WF) (hx : x.length < 2 ^ ilenWidth s.cfg .enc) :
    exec (.pEncode x) s = .next (s.pushLines (expansion .enc x (.gather .enc))) := by
  rw [exec, execPEncode, underConfig_of_wf hw, if_pos hx]
  rfl

theorem exec_pDecode {x : List Symbol} (hw : s.cfg.WF) (hx : x.length < 2 ^ ilenWidth s.cfg .dec) :
    exec (.pDecode x) s = .next (s.pushLines (expansion .dec x .judge)) := by
  rw [exec, execPDecode, underConfig_of_wf hw, if_pos hx]
  rfl

/-- Settles O43, by `expansion_lines`. -/
theorem pseudoOperationsExpand : Obligations.PseudoOperationsExpand := fun _ x hw =>
  ⟨fun hx => ⟨_, exec_pEncode hw hx, expansion_lines .enc x (.gather .enc)⟩,
    fun hx => ⟨_, exec_pDecode hw hx, expansion_lines .dec x .judge⟩⟩

end Sys2Proof.Machine
end

section
/-! SUPPORT. The turn of a unit in the midst of a run: it depends on its own unit alone, whatever the host and the other unit
have done (20_memory.md R50 (c), (d)); while the unit is BUSY it is possible and brings the end nearer. -/

namespace Sys2Proof.Machine

variable {s t v v' : State} {u w : UnitId} {i : Instr} {k : Nat}

/-! ## What a turn of a unit depends on -/

@[simp] theorem withUnitOf_host (w : UnitId) (s d : State) : (withUnitOf w s d).host = s.host := by cases w <;> rfl

@[simp] theorem withUnitOf_turns (w : UnitId) (s d : State) : (withUnitOf w s d).turns = s.turns := by cases w <;> rfl

theorem withUnitOf_withUnitOf (u : UnitId) (s d e : State) : withUnitOf u (withUnitOf u s d) e = withUnitOf u s e := by
  cases u <;> rfl

theorem withUnitOf_comm (h : u ≠ w) (s d e : State) :
    withUnitOf u (withUnitOf w s d) e = withUnitOf w (withUnitOf u s e) d := by
  cases u
  · obtain rfl := eq_dec_of_ne h
    rfl
  · obtain rfl := eq_enc_of_ne h
    rfl

theorem decFinished_withUnitOf (s v : State) : decFinished (withUnitOf .dec s v) = withUnitOf .dec s (decFinished v) := by
  cases hp : v.paderr <;> cases hk : v.unkerr <;> simp [decFinished, withUnitOf, withDecOf, raiseDecodeError, hp, hk]

/-- A step of a unit has the same effect on its unit in every state that holds this unit and the same configuration. -/
theorem UnitStep.exec_withUnitOf (h : UnitStep u i) (hc : s.cfg = v.cfg) (hv : exec i v = .next v') :
    exec i (withUnitOf u s v) = .next (withUnitOf u s v') := by
  obtain ⟨cfg, enc, dec, pe, uk, host, turns, free, resets⟩ := v
  obtain rfl : s.cfg = cfg := hc
  cases h with
  | enc3 | enc2 | enc1 =>
    obtain ⟨hw, hb, hi, ho, rfl⟩ := encGroup_next.mp hv
    exact encGroup_next.mpr ⟨hw, hb, hi, ho, rfl⟩
  | dec4 | dec3 | dec2 | decGrperr =>
    obtain ⟨hw, hb, hi, ho, rfl⟩ := decGroup_next.mp hv
    exact decGroup_next.mpr ⟨hw, hb, hi, ho, rfl⟩
  | encFinish | decLenfail =>
    obtain ⟨hw, hb, rfl⟩ := finishing_next.mp hv
    exact finishing_next.mpr ⟨hw, hb, rfl⟩
  | decFinish =>
    obtain ⟨hw, hb, rfl⟩ := finishing_next.mp hv
    exact finishing_next.mpr ⟨hw, hb, (decFinished_withUnitOf ..).symm⟩

/-- `SameUnit u s v`: unit `u`, the flags of DEC included, is in `s` as in `v`, and so is what its turns read beside it. -/
structure SameUnit (u : UnitId) (s v : State) : Prop where
  cfg : s.cfg = v.cfg
  resets : s.resets = v.resets
  eq : withUnitOf u s v = s

theorem SameUnit.refl (u : UnitId) (s : State) : SameUnit u s s := ⟨rfl, rfl, withUnitOf_self u s⟩

theorem SameUnit.unit (h : SameUnit u s v) : s.unit u = v.unit u := by rw [← h.eq, withUnitOf_unit_same]

theorem SameUnit.readInput (h : SameUnit u s v) (j : Nat) : readInput s u j = readInput v u j := by
  rw [Machine.readInput, Machine.readInput, h.unit, h.resets]

theorem SameUnit.unitFetch (h : SameUnit u s v) : unitFetch s u = unitFetch v u := by
  have hread := h.readInput
  have hunit := h.unit
  cases u with
  | enc => simp only [Machine.unitFetch, encFetch, hread, show s.enc = v.enc from hunit]
  | dec => simp only [Machine.unitFetch, decFetch, hread, lastGroup, h.cfg, show s.dec = v.dec from hunit]

/-- A turn of a unit does to the unit what it does in any other state that holds the same unit. -/
theorem SameUnit.unitTurn (h : SameUnit u s v) (hv : unitTurn u v = .next v') :
    unitTurn u s = .next (withUnitOf u s v') := by
  have hfetch := h.unitFetch
  unfold Machine.unitTurn at hv ⊢
  rw [h.unit, hfetch]
  split_ifs at hv ⊢
  · cases hf : Machine.unitFetch v u with
    | none =>
      rw [hf] at hv
      exact absurd (underConfig_next.mp hv).2 nofun
    | some c =>
      rw [hf] at hv
      rcases runCode_of_unitFetch hf with ⟨i, hi, hc⟩ | ⟨e, hc⟩ <;> simp only [hc] at hv ⊢
      · have := hi.exec_withUnitOf h.cfg hv
        rwa [h.eq] at this
      · exact absurd (underConfig_next.mp hv).2 nofun
  · obtain ⟨hw, hv⟩ := underConfig_next.mp hv
    cases hv
    rw [h.eq]
    exact underConfig_next.mpr ⟨h.cfg ▸ hw, rfl⟩

/-- A turn of unit `w` leaves everything but that unit alone. -/
theorem unitTurn_frame (h : unitTurn w s = .next t) :
    t.cfg = s.cfg ∧ t.resets = s.resets ∧ t.host = s.host ∧ t.turns = s.turns ∧ ∀ u, u ≠ w → t.unit u = s.unit u := by
  rw [← unitTurn_only h]
  exact ⟨withUnitOf_cfg .., withUnitOf_resets .., withUnitOf_host .., withUnitOf_turns ..,
    fun u hu => withUnitOf_unit s t hu⟩

/-- After its own turn in both states the unit is the same again. -/
theorem SameUnit.after_turn (h : SameUnit u s v) (hv : Machine.unitTurn u v = .next v') :
    SameUnit u (withUnitOf u s v') v' := by
  obtain ⟨hcfg, hresets, -⟩ := unitTurn_frame hv
  exact ⟨by rw [withUnitOf_cfg, h.cfg, hcfg], by rw [withUnitOf_resets, h.resets, hresets], withUnitOf_withUnitOf ..⟩

/-- A turn of the other unit does not touch this one. -/
theorem SameUnit.after_other (h : SameUnit u s v) (hne : u ≠ w) (ht : Machine.unitTurn w s = .next t) :
    SameUnit u t v := by
  obtain ⟨hcfg, hresets, -⟩ := unitTurn_frame ht
  refine ⟨hcfg.trans h.cfg, hresets.trans h.resets, ?_⟩
  rw [← unitTurn_only ht, withUnitOf_comm hne, h.eq]

/-! ## Progress -/

/-- An upper bound of the turns that a unit has still to take until it is DONE. -/
def unitLeft (x : CodecUnit) : Nat := if x.st = .busy then x.ilen - x.rp + 1 else 0

theorem unitLeft_of_busy {x : CodecUnit} (h : x.st = .busy) : unitLeft x = x.ilen - x.rp + 1 := if_pos h

theorem unitLeft_finished (x : CodecUnit) (n : Nat) (e : Option DecErr) : unitLeft (x.finished n e) = 0 := rfl

theorem unitLeft_finished_lt {x : CodecUnit} (h : x.st = .busy) (n : Nat) (e : Option DecErr) :
    unitLeft (x.finished n e) < unitLeft x := by
  rw [unitLeft_finished, unitLeft_of_busy h]
  exact Nat.succ_pos _

theorem unitLeft_moved_lt {x : CodecUnit} {n : Nat} (h : x.st = .busy) (hlt : x.rp < x.ilen) (hn : 0 < n)
    (out : List (BitVec 8)) : unitLeft (x.moved n out) < unitLeft x := by
  rw [unitLeft_of_busy (x := x.moved n out) h, unitLeft_of_busy h, CodecUnit.moved_ilen, CodecUnit.moved_rp]
  omega

theorem unitTurn_enc_of_busy (hi : Inv s) (hb : s.enc.st = .busy) :
    ∃ t, unitTurn .enc s = .next t ∧ unitLeft t.enc < unitLeft s.enc := by
  rcases Nat.lt_or_eq_of_le (hi.enc.busyRead hb).1 with hlt | hl
  · refine ⟨_, turn_enc_of_lt hi hb hlt, unitLeft_moved_lt hb hlt ?_ _⟩
    rw [nextGroupSize]
    omega
  · exact ⟨_, (turn_enc_of_none_left hb hl).trans (exec_encFinish_next.mpr ⟨hi.config, ⟨hb, hl⟩, rfl⟩),
      unitLeft_finished_lt hb _ _⟩

theorem unitTurn_dec_of_busy (hi : Inv s) (hb : s.dec.st = .busy) :
    ∃ t, unitTurn .dec s = .next t ∧ unitLeft t.dec < unitLeft s.dec := by
  by_cases h4 : s.dec.ilen % 4 = 0
  · rcases Nat.lt_or_eq_of_le (hi.dec.busyRead hb h4).1 with hlt | hl
    · exact ⟨_, turn_dec_group hi hb h4 hlt, unitLeft_moved_lt hb hlt (by decide) _⟩
    · obtain ⟨n, e, hd⟩ := decFinished_eq s
      refine ⟨_, (turn_dec_of_none_left hb h4 hl).trans (exec_decFinish_next.mpr ⟨hi.config, ⟨hb, h4, hl⟩, rfl⟩), ?_⟩
      rw [hd]
      exact unitLeft_finished_lt hb n e
  · exact ⟨_, (turn_dec_of_badLength hb h4).trans (exec_decLenfail hi.config hb h4), unitLeft_finished_lt hb _ _⟩

/-- Under the invariant a BUSY unit has a turn, and it brings the unit nearer to DONE. -/
theorem unitTurn_of_busy (hi : Inv s) (hb : (s.unit w).st = .busy) :
    ∃ t, unitTurn w s = .next t ∧ unitLeft (t.unit w) < unitLeft (s.unit w) := by
  cases w
  · exact unitTurn_enc_of_busy hi hb
  · exact unitTurn_dec_of_busy hi hb

/-- An upper bound of the steps that may pass before the host moves. -/
def stepsLeft (s : State) : Nat := s.turns.length + (unitLeft s.enc + unitLeft s.dec)

/-- Under the invariant a unit always has a turn. It leaves the list of turns alone, adds no work, and takes some off when
the unit is BUSY. -/
theorem unitTurn_of_inv (hi : Inv s) (w : UnitId) :
    ∃ t, unitTurn w s = .next t ∧ t.turns = s.turns ∧ stepsLeft t ≤ stepsLeft s ∧
      ((s.unit w).st = .busy → stepsLeft t < stepsLeft s) := by
  by_cases hb : (s.unit w).st = .busy
  · obtain ⟨t, ht, hlt⟩ := unitTurn_of_busy hi hb
    obtain ⟨-, -, -, hturns, hother⟩ := unitTurn_frame ht
    have hsteps : stepsLeft t < stepsLeft s := by
      rw [stepsLeft, stepsLeft, hturns]
      cases w
      · rw [show t.dec = s.dec from hother .dec (by decide)]
        simpa using hlt
      · rw [show t.enc = s.enc from hother .enc (by decide)]
        simpa using hlt
    exact ⟨t, ht, hturns, hsteps.le, fun _ => hsteps⟩
  · exact ⟨s, unitTurn_of_not_busy hi.config hb, rfl, le_rfl, fun h => absurd h hb⟩

end Sys2Proof.Machine
end

section
/-! SUPPORT. A run up to a turn of the host (43_host_interface.md R150, R157): which agent moves next is given by the list of
turns, and the units' turns run out, so the host takes its next line after finitely many steps. -/

namespace Sys2Proof.Machine

variable {n k : Nat} {P Q R : State → Prop} {s t : State} {u w : UnitId}

/-! ## Runs that lead to a condition -/

/-- `Leads n Q s`: a run from `s` comes to a state with `Q`, and until then the host has more than `n` lines to do. -/
inductive Leads (n : Nat) (Q : State → Prop) : State → Prop
  | here {s : State} (h : Q s) : Leads n Q s
  | step {s t : State} (hn : n < s.host.script.length) (hs : step s = .next t) (ht : Leads n Q t) : Leads n Q s

theorem Leads.trans (h : Leads n Q s) (hr : ∀ t, Q t → Leads n R t) : Leads n R s := by
  induction h with
  | here h => exact hr _ h
  | step hn hs _ ih => exact .step hn hs ih

theorem core_run_succ (hs : step s = .next t) (k : Nat) : Sys2Proof.core.run (k + 1) s = Sys2Proof.core.run k t := by
  have hcore : Sys2Proof.core.step s = .next t := hs
  simp only [Host.Core.run, hcore]

/-- The run itself. -/
theorem Leads.run (h : Leads n Q s) :
    ∃ k r, Sys2Proof.core.run k s = .next r ∧ Q r ∧
      ∀ j q, j < k → Sys2Proof.core.run j s = .next q → n < (State.host q).script.length := by
  induction h with
  | here h => exact ⟨0, _, rfl, h, fun _ _ hj => absurd hj (Nat.not_lt_zero _)⟩
  | @step s t hn hs _ ih =>
    obtain ⟨k, r, hrun, hr, hlong⟩ := ih
    refine ⟨k + 1, r, (core_run_succ hs k).trans hrun, hr, fun j q hj hq => ?_⟩
    cases j with
    | zero =>
      cases hq
      exact hn
    | succ j => exact hlong j q (Nat.lt_of_succ_lt_succ hj) ((core_run_succ hs j).symm.trans hq)

/-! ## The host gets its turn -/

/-- `Calm s`: the invariant holds, and the order of turns holds no reset. -/
structure Calm (s : State) : Prop where
  inv : Inv s
  noReset : .reset ∉ s.turns

theorem Calm.popTurn (h : Calm s) : Calm s.popTurn :=
  ⟨⟨h.inv.config, h.inv.enc.of_eq rfl rfl, h.inv.dec.of_eq rfl rfl⟩, mt List.mem_of_mem_tail h.noReset⟩

theorem Calm.unitTurn (h : Calm s) (ht : unitTurn w s = .next t) : Calm t := by
  obtain ⟨-, -, -, hturns, -⟩ := unitTurn_frame ht
  exact ⟨(unitTurn_core ht).inv h.inv, hturns ▸ h.noReset⟩

theorem Calm.hostTurn (h : Calm s) (ht : hostTurn s = .next t) (hturns : t.turns = s.turns) : Calm t :=
  ⟨(hostTurn_core ht).inv h.inv, hturns ▸ h.noReset⟩

theorem stepsLeft_popTurn_lt (h : s.turns ≠ []) : stepsLeft s.popTurn < stepsLeft s :=
  Nat.add_lt_add_right (by simpa [State.popTurn] using List.length_pos_iff.mpr h) _

theorem popTurn_of_nil (h : s.turns = []) : s.popTurn = s := by
  rw [State.popTurn, h, List.tail_nil, ← h]

/-- A turn that the list gives to a unit. -/
theorem unitTurn_of_given (hc : Calm s) (hn : s.turns ≠ []) (w : UnitId) :
    ∃ t, unitTurn w s.popTurn = .next t ∧ stepsLeft t < stepsLeft s := by
  obtain ⟨t, ht, -, hle, -⟩ := unitTurn_of_inv hc.popTurn.inv w
  exact ⟨t, ht, hle.trans_lt (stepsLeft_popTurn_lt hn)⟩

/-- A turn that a BUSY unit has when the list is used up. -/
theorem unitTurn_of_not_given (hc : Calm s) (hn : s.turns = []) (hb : (s.unit w).st = .busy) :
    ∃ t, unitTurn w s.popTurn = .next t ∧ stepsLeft t < stepsLeft s := by
  obtain ⟨t, ht, -, -, hlt⟩ := unitTurn_of_inv hc.inv w
  exact ⟨t, by rwa [popTurn_of_nil hn], hlt hb⟩

/-- Without a reset, a step is a turn of a unit, after which there is less to wait, or the turn of the host, which without a
given turn has it only when no unit is BUSY. -/
theorem step_of_calm (hc : Calm s) :
    (∃ w t, step s = unitTurn w s.popTurn ∧ unitTurn w s.popTurn = .next t ∧ stepsLeft t < stepsLeft s) ∨
      (step s = hostTurn s.popTurn ∧ (s.turns = [] → ∀ u, (s.unit u).st ≠ .busy)) := by
  cases hs : s.turns with
  | nil =>
    by_cases he : s.enc.st = .busy
    · obtain ⟨t, ht⟩ := unitTurn_of_not_given (w := .enc) hc hs he
      exact .inl ⟨.enc, t, by simp [step, State.nextAgent, hs, he, turn], ht⟩
    by_cases hd : s.dec.st = .busy
    · obtain ⟨t, ht⟩ := unitTurn_of_not_given (w := .dec) hc hs hd
      exact .inl ⟨.dec, t, by simp [step, State.nextAgent, hs, he, hd, turn], ht⟩
    · exact .inr ⟨by simp [step, State.nextAgent, hs, he, hd, turn], fun _ u => by cases u <;> assumption⟩
  | cons a as =>
    have hn : s.turns ≠ [] := by simp [hs]
    have ha : s.nextAgent = a := by rw [State.nextAgent, hs]
    rw [step, ha]
    cases a with
    | enc =>
      obtain ⟨t, ht⟩ := unitTurn_of_given hc hn .enc
      exact .inl ⟨.enc, t, rfl, ht⟩
    | dec =>
      obtain ⟨t, ht⟩ := unitTurn_of_given hc hn .dec
      exact .inl ⟨.dec, t, rfl, ht⟩
    | host => exact .inr ⟨rfl, nofun⟩
    | reset => exact absurd (hs ▸ List.mem_cons_self ..) hc.noReset

/-- `Waits n Q P`: `P` lasts, whatever the units do, until the host has its turn; the host then goes on to `Q`, or it only
gets an answer while a unit is BUSY, and waits on. -/
structure Waits (n : Nat) (Q P : State → Prop) : Prop where
  calm : ∀ s, P s → Calm s ∧ n < s.host.script.length
  pop : ∀ s, P s → P s.popTurn
  unit : ∀ s t w, P s → unitTurn w s = .next t → P t
  host : ∀ s, P s → ∃ t, hostTurn s = .next t ∧
    (Leads n Q t ∨ P t ∧ (∃ a, t = s.answering a) ∧ ∃ u, (s.unit u).st = .busy)

/-- The host gets its turn: each step before it takes a given turn or is a step of a BUSY unit. -/
theorem Waits.leads (hw : Waits n Q P) (hs : P s) : Leads n Q s := by
  induction hm : stepsLeft s using Nat.strong_induction_on generalizing s with
  | _ m ih =>
    obtain ⟨hcalm, hn⟩ := hw.calm s hs
    rcases step_of_calm hcalm with ⟨w, t, hstep, hturn, hlt⟩ | ⟨hstep, hbusy⟩
    · exact .step hn (hstep.trans hturn) (ih _ (hm ▸ hlt) (hw.unit _ _ w (hw.pop s hs) hturn) rfl)
    · obtain ⟨t, hturn, hnext | ⟨ht, ⟨a, rfl⟩, u, hu⟩⟩ := hw.host _ (hw.pop s hs)
      · exact .step hn (hstep.trans hturn) hnext
      · have hgiven : s.turns ≠ [] := fun h0 => hbusy h0 u (by rwa [State.popTurn_unit] at hu)
        exact .step hn (hstep.trans hturn) (ih _ (hm ▸ stepsLeft_popTurn_lt hgiven) ht rfl)

end Sys2Proof.Machine
end

section
/-! SUPPORT. The lines of the host's script (43_host_interface.md R150 to R152), each once: what the host and its unit hold
after the line. Until the host takes a line, a unit that is not BUSY does not change. -/

namespace Sys2Proof.Machine

variable {n i : Nat} {Q : State → Prop} {s t : State} {c : Config} {u w : UnitId} {x : CodecUnit} {h h' : HostSide}
  {l : Line} {ls : List Line} {a : Option Answer} {b : Answer} {g : List (BitVec 8)} {e : BitVec 8} {code : Code}

/-! ## One line -/

/-- The state with another host. -/
def State.withHost (s : State) (h : HostSide) : State := { s with host := h }

@[simp] theorem State.withHost_cfg : (s.withHost h).cfg = s.cfg := rfl
@[simp] theorem State.withHost_turns : (s.withHost h).turns = s.turns := rfl
@[simp] theorem State.withHost_host : (s.withHost h).host = h := rfl
@[simp] theorem State.withHost_unit : (s.withHost h).unit u = s.unit u := by cases u <;> rfl

theorem State.withHost_same : SameCore s (s.withHost h) := ⟨rfl, rfl, rfl, rfl, rfl, rfl⟩

theorem hostTurn_of_line (hs : s.host = ⟨l :: ls, a, g⟩) : hostTurn s = runLine l (s.withHost ⟨ls, a, g⟩) := by
  rw [hostTurn, hs]
  rfl

/-- A line that makes an access: the access, then what the host does with its answer. -/
theorem runLine_of_access (hl : lineCode l = some code) (hm : hostMayIssue code = true)
    (hr : runCode code s = .next t) : runLine l s = .next (lineThen l t) := by
  rw [runLine, hl]
  simp only [hm, hr, if_true]

/-- A line that makes no access. -/
theorem runLine_of_no_access (hw : s.cfg.WF) (hl : lineCode l = none) : runLine l s = .next (lineThen l s) := by
  rw [runLine, hl]
  exact underConfig_of_wf hw

/-! ## A unit that is not BUSY while the host works -/

/-- `Quiet c u x h s`: in `s`, with no reset to come, unit `u` is not BUSY and holds `x`, and the host holds `h`. -/
structure Quiet (c : Config) (u : UnitId) (x : CodecUnit) (h : HostSide) (s : State) : Prop extends Calm s where
  cfg : s.cfg = c
  unit : s.unit u = x
  idle : x.st ≠ .busy
  host : s.host = h

theorem Quiet.popTurn (hq : Quiet c u x h s) : Quiet c u x h s.popTurn :=
  ⟨hq.toCalm.popTurn, hq.cfg, by rw [State.popTurn_unit, hq.unit], hq.idle, hq.host⟩

theorem Quiet.unitTurn (hq : Quiet c u x h s) (ht : unitTurn w s = .next t) : Quiet c u x h t := by
  obtain ⟨hcfg, -, hhost, -, hother⟩ := unitTurn_frame ht
  refine ⟨hq.toCalm.unitTurn ht, hcfg.trans hq.cfg, ?_, hq.idle, hhost.trans hq.host⟩
  by_cases hu : u = w
  · subst hu
    rw [unitTurn_of_not_busy hq.inv.config (hq.unit ▸ hq.idle)] at ht
    cases ht
    exact hq.unit
  · rw [hother u hu, hq.unit]

/-- A quiet state leads to what its next line leads to. -/
theorem Quiet.leads (hq : Quiet c u x h s) (hn : n < h.script.length)
    (hline : ∀ s, Quiet c u x h s → ∃ t, hostTurn s = .next t ∧ Leads n Q t) : Leads n Q s := by
  have hw : Waits n Q (Quiet c u x h) :=
    { calm := fun s hs => ⟨hs.toCalm, by rwa [hs.host]⟩
      pop := fun s hs => hs.popTurn
      unit := fun s t w hs => hs.unitTurn
      host := fun s hs =>
        let ⟨t, ht, hl⟩ := hline s hs
        ⟨t, ht, .inl hl⟩ }
  exact hw.leads hq

/-- After a turn of the host that leaves the unit alone, what the host holds is new. -/
theorem Quiet.withHost (hq : Quiet c u x h s) (h' : HostSide) : Quiet c u x h' (s.withHost h') :=
  ⟨⟨(ChangesCore.of_same State.withHost_same).inv hq.inv, hq.noReset⟩, hq.cfg, by rw [State.withHost_unit, hq.unit],
    hq.idle, rfl⟩

/-- After a turn of the host that writes the unit. -/
theorem Quiet.setUnit {y : CodecUnit} (hq : Quiet c u x h s)
    (ht : hostTurn s = .next ((s.withHost h').setUnit u y)) (hy : y.st ≠ .busy) :
    Quiet c u y h' ((s.withHost h').setUnit u y) :=
  ⟨hq.toCalm.hostTurn ht (by rw [State.setUnit_turns, State.withHost_turns]),
    by rw [State.setUnit_cfg, State.withHost_cfg, hq.cfg], State.setUnit_unit .., hy,
    by rw [State.setUnit_host, State.withHost_host]⟩

/-! ## The lines of an expansion -/

/-- A line that is an operation of the host's. -/
theorem Quiet.hostTurn_op {j : Instr} (hq : Quiet c u x ⟨.op code :: ls, a, g⟩ s) (hd : decode code = .ok (.instr j))
    (hm : hostMayIssue code = true) (hj : exec j (s.withHost ⟨ls, a, g⟩) = .next t) : hostTurn s = .next t := by
  rw [hostTurn_of_line hq.host]
  exact runLine_of_access rfl hm ((runCode_instr hd).trans hj)

/-- `WR U.IBUF[i], e`. -/
theorem Quiet.writeElement (hq : Quiet c u x ⟨.op (.write u (.ibuf i) e.toNat) :: ls, a, g⟩ s)
    (hi : i < ibufSize c u) :
    ∃ t, hostTurn s = .next t ∧ Quiet c u { x with ibuf := x.ibuf.write i e } ⟨ls, a, g⟩ t := by
  have hunit : (s.withHost ⟨ls, a, g⟩).unit u = x := by rw [State.withHost_unit, hq.unit]
  have hturn := hq.hostTurn_op (decode_write_hWrIbuf u i e) rfl
    (exec_hWrIbuf (e := e) hq.inv.config (hq.cfg ▸ hi) (hunit ▸ hq.idle))
  rw [hunit] at hturn
  exact ⟨_, hturn, hq.setUnit hturn hq.idle⟩

/-- `WR U.ILEN, n`. -/
theorem Quiet.writeLength {m : Nat} (hq : Quiet c u x ⟨.op (.write u (.reg 2) m) :: ls, a, g⟩ s)
    (hm : m < 2 ^ ilenWidth c u) :
    ∃ t, hostTurn s = .next t ∧ Quiet c u { x with ilen := m } ⟨ls, a, g⟩ t := by
  have hunit : (s.withHost ⟨ls, a, g⟩).unit u = x := by rw [State.withHost_unit, hq.unit]
  have hturn := hq.hostTurn_op rfl rfl (exec_hWrIlen (u := u) (n := m) hq.inv.config (hq.cfg ▸ hm))
  rw [hunit, if_neg hq.idle] at hturn
  exact ⟨_, hturn, hq.setUnit hturn hq.idle⟩

/-- `WR U.CTRL, 1`. -/
theorem Quiet.writeCtrl (hq : Quiet c u x ⟨.op (.write u (.reg 0) 1) :: ls, a, g⟩ s) :
    hostTurn s = .next (startUnit u (s.withHost ⟨ls, a, g⟩)) :=
  hq.hostTurn_op (j := .hStart u 1#8) rfl rfl (exec_hStart hq.inv.config)

/-- `m = RD U.OLEN`: the host goes on to read the elements of the result. -/
theorem Quiet.gather (hq : Quiet c u x ⟨.gather u :: ls, a, g⟩ s) :
    ∃ t, hostTurn s = .next t ∧
      Quiet c u x ⟨(List.range x.olen).map (Line.take u) ++ .deliver u :: ls, some (.len x.olen), []⟩ t := by
  have hunit : (s.withHost ⟨ls, a, g⟩).unit u = x := by rw [State.withHost_unit, hq.unit]
  have hread := exec_hRdOlen (s := s.withHost ⟨ls, a, g⟩) (u := u) hq.inv.config (hunit ▸ hq.idle)
  have hturn : hostTurn s = _ := (hostTurn_of_line hq.host).trans
    (runLine_of_access (code := .read u (.reg 3)) rfl rfl ((runCode_instr rfl).trans hread))
  refine ⟨_, hturn, ?_⟩
  rw [hunit]
  have := hq.withHost ⟨(List.range x.olen).map (Line.take u) ++ .deliver u :: ls, some (.len x.olen), []⟩
  simpa [lineThen, gatherThen, State.answering, State.pushLines, State.gather, State.withHost] using this

/-- `r[i] = RD U.OBUF[i]`. -/
theorem Quiet.take (hq : Quiet c u x ⟨.take u i :: ls, a, g⟩ s) (hi : i < obufSize c u) (hd : x.st = .done)
    (hlt : i < x.olen) (he : x.obuf.read i = some e) :
    ∃ t, hostTurn s = .next t ∧ Quiet c u x ⟨ls, some (.elem e), g ++ [e]⟩ t := by
  have hunit : (s.withHost ⟨ls, a, g⟩).unit u = x := by rw [State.withHost_unit, hq.unit]
  have hread := exec_hRdObuf (s := s.withHost ⟨ls, a, g⟩) (u := u) (e := e) hq.inv.config (hq.cfg ▸ hi) (hunit ▸ hd)
    (hunit ▸ hlt) (hunit ▸ he)
  exact ⟨_, (hostTurn_of_line hq.host).trans
    (runLine_of_access (code := .read u (.obuf i)) rfl rfl ((runCode_instr rfl).trans hread)), hq.withHost _⟩

/-- The result that the host has when it has gathered `r`. -/
def resultOf (u : UnitId) (r : List (BitVec 8)) : Answer :=
  match u with
  | .enc => .encoded r
  | .dec => .decoded r

/-- `result: r`. -/
theorem Quiet.deliver (hq : Quiet c u x ⟨.deliver u :: ls, a, g⟩ s) :
    ∃ t, hostTurn s = .next t ∧ t.host = ⟨ls, some (resultOf u g), g⟩ := by
  refine ⟨_, (hostTurn_of_line hq.host).trans (runLine_of_no_access hq.inv.config rfl), ?_⟩
  cases u <;> rfl

end Sys2Proof.Machine
end

section
/-! SUPPORT. The pseudo-operations worked through (43_host_interface.md R151, R152): the input is written, the unit is started
and polled while it computes (41_encoder.md R99, 42_decoder.md R123), and its result is read. -/

namespace Sys2Proof.Machine

variable {n N i k : Nat} {Q : State → Prop} {s t v v₀ r : State} {c : Config} {u w : UnitId} {x : CodecUnit} {l : Line}
  {ls rest : List Line} {a : Option Answer} {g y : List (BitVec 8)}

/-! ## The input -/

/-- The unit with the input `y` written. -/
def CodecUnit.withInput (x : CodecUnit) (y : List (BitVec 8)) : CodecUnit :=
  { x with ibuf := x.ibuf.writeAll 0 y, ilen := y.length }

theorem inputOf_of_withInput (h : s.unit u = x.withInput y) : inputOf s u = y := by
  have hread : ∀ j, (hj : j < y.length) → readInput s u (0 + j) = y[j] := fun j hj => by
    refine readInput_of_written ?_
    rw [h, CodecUnit.withInput, Memory.read_writeAll, if_pos (by omega), Nat.zero_add, Nat.sub_zero,
      List.getElem?_eq_getElem hj]
  have hlen : (s.unit u).ilen = y.length := by rw [h, CodecUnit.withInput]
  rw [inputOf, hlen]
  refine List.ext_getElem (length_memRead ..) fun j _ hj => ?_
  simp only [memRead, List.getElem_map, List.getElem_range]
  exact hread j hj

/-- The host writes the elements of the input one by one. -/
theorem Quiet.load (hq : Quiet c u x ⟨loadLines u i y ++ ls, a, g⟩ s) (hy : i + y.length ≤ ibufSize c u)
    (hn : n < ls.length) : Leads n (Quiet c u { x with ibuf := x.ibuf.writeAll i y } ⟨ls, a, g⟩) s := by
  induction y generalizing i x s with
  | nil => exact .here hq
  | cons e y ih =>
    rw [List.length_cons] at hy
    refine hq.leads (by simp; omega) fun s hs => ?_
    obtain ⟨t, hturn, ht⟩ := Quiet.writeElement hs (by omega)
    exact ⟨t, hturn, ih ht (by omega)⟩

/-- The host writes the input. -/
theorem Quiet.writeInput (hq : Quiet c u x ⟨expansion u y l ++ rest, a, g⟩ s) (hy : y.length < 2 ^ ilenWidth c u) :
    Leads rest.length
      (Quiet c u (x.withInput y) ⟨.op (.write u (.reg 0) 1) :: .poll u :: l :: rest, a, g⟩) s := by
  rw [expansion, List.append_assoc] at hq
  refine (hq.load (by rw [ibufSize]; omega) (by simp; omega)).trans fun s hs => ?_
  refine hs.leads (by simp; omega) fun s hs => ?_
  obtain ⟨t, hturn, ht⟩ := Quiet.writeLength hs hy
  exact ⟨t, hturn, .here ht⟩

/-! ## START and POLL -/

/-- The agent that unit `u` is. -/
def agentOf : UnitId → Agent
  | .enc => .enc
  | .dec => .dec

theorem turn_agentOf (u : UnitId) (s : State) : turn (agentOf u) s = unitTurn u s := by cases u <;> rfl

/-- `Transaction u N v₀ r`: by itself, unit `u` would go in `N` turns from `v₀`, in which it has just been started, to `r`, in
which it is DONE, and be BUSY until then. -/
structure Transaction (u : UnitId) (N : Nat) (v₀ r : State) : Prop where
  busy : ∀ k, k < N → ∃ v, manyTurns (agentOf u) k v₀ = .next v ∧ (v.unit u).st = .busy
  run : manyTurns (agentOf u) N v₀ = .next r
  done : (r.unit u).st = .done

theorem Transaction.run_le (ht : Transaction u N v₀ r) (hk : k ≤ N) : ∃ v, manyTurns (agentOf u) k v₀ = .next v := by
  rcases Nat.lt_or_eq_of_le hk with hlt | rfl
  · exact (ht.busy k hlt).imp fun _ => And.left
  · exact ⟨r, ht.run⟩

/-- `Underway u N v₀ s`: in `s` unit `u` is as the turns of its transaction have left it. -/
def Underway (u : UnitId) (N : Nat) (v₀ s : State) : Prop :=
  ∃ k v, k ≤ N ∧ manyTurns (agentOf u) k v₀ = .next v ∧ SameUnit u s v

theorem Underway.start (u : UnitId) (N : Nat) (v₀ : State) : Underway u N v₀ v₀ :=
  ⟨0, v₀, Nat.zero_le N, rfl, .refl u v₀⟩

/-- What leaves CORE alone leaves the transaction alone. -/
theorem Underway.of_same (h : Underway u N v₀ s) (ht : SameCore s t) : Underway u N v₀ t := by
  obtain ⟨k, v, hk, hrun, hcfg, hresets, heq⟩ := h
  refine ⟨k, v, hk, hrun, ht.cfg.trans hcfg, ht.resets.trans hresets, ?_⟩
  obtain ⟨hc, he, hd, hp, hu, hr⟩ := ht
  cases t
  rw [← heq] at he hd hp hu
  cases u
  · obtain rfl := he
    rfl
  · obtain rfl := hd
    obtain rfl := hp
    obtain rfl := hu
    rfl

/-- A unit that is underway is BUSY, or it has come to the end of its transaction. -/
theorem Underway.cases (h : Underway u N v₀ s) (ht : Transaction u N v₀ r) :
    (s.unit u).st = .busy ∨ s.unit u = r.unit u := by
  obtain ⟨k, v, hk, hrun, hsame⟩ := h
  rcases Nat.lt_or_eq_of_le hk with hlt | rfl
  · obtain ⟨v', hrun', hb⟩ := ht.busy k hlt
    cases hrun.symm.trans hrun'
    exact .inl (hsame.unit ▸ hb)
  · cases hrun.symm.trans ht.run
    exact .inr hsame.unit

/-- A turn of the unit itself is the next turn of its transaction, which there is while the unit is BUSY; the other unit does
not matter. -/
theorem Underway.unitTurn (h : Underway u N v₀ s) (ht : Transaction u N v₀ r) (hw : unitTurn w s = .next t)
    (hs : s.cfg.WF) : Underway u N v₀ t := by
  obtain ⟨k, v, hk, hrun, hsame⟩ := h
  by_cases hu : u = w
  · subst hu
    rcases Nat.lt_or_eq_of_le hk with hlt | rfl
    · obtain ⟨v', hv'⟩ := ht.run_le hlt
      have hturn : Machine.unitTurn u v = .next v' := by rw [← turn_agentOf, ← manyTurns_succ hrun, hv']
      cases (hsame.unitTurn hturn).symm.trans hw
      exact ⟨k + 1, v', hlt, hv', hsame.after_turn hturn⟩
    · have hr : v = r := by cases hrun.symm.trans ht.run; rfl
      have hdone : (s.unit u).st ≠ .busy := by
        rw [hsame.unit, hr, ht.done]
        nofun
      cases (unitTurn_of_not_busy hs hdone).symm.trans hw
      exact ⟨k, v, hk, hrun, hsame⟩
  · exact ⟨k, v, hk, hrun, hsame.after_other hu hw⟩

/-- `Polling c u N v₀ ls s`: the host polls unit `u`, which is underway. -/
structure Polling (c : Config) (u : UnitId) (N : Nat) (v₀ : State) (ls : List Line) (s : State) : Prop extends Calm s where
  cfg : s.cfg = c
  script : s.host.script = .poll u :: ls
  underway : Underway u N v₀ s

theorem stBits_eq_done_iff {st : UnitSt} : stBits st = stBits .done ↔ st = .done := by cases st <;> decide

/-- The answer to a read of STATUS and what POLL makes of it. -/
theorem hostTurn_poll (hw : s.cfg.WF) (hs : s.host.script = .poll u :: ls) :
    hostTurn s = .next (if (s.unit u).st = .done then
        s.withHost ⟨ls, some (.reg8 (statusByte (s.unit u))), s.host.gathered⟩
      else s.answering (.reg8 (statusByte (s.unit u)))) := by
  have hread := exec_hRdStatus (s := s.withHost ⟨ls, s.host.answer, s.host.gathered⟩) (u := u) hw
  have hhost : s.host = ⟨.poll u :: ls, s.host.answer, s.host.gathered⟩ := by rw [← hs]
  rw [hostTurn_of_line hhost,
    runLine_of_access (code := .read u (.reg 1)) rfl rfl ((runCode_instr rfl).trans hread), State.withHost_unit]
  obtain ⟨hst, -⟩ := slices_statusByte (s.unit u)
  simp only [lineThen, pollThen, State.answering_answer, hst, stBits_eq_done_iff]
  split_ifs
  · rfl
  · simp [State.answering, State.pushLines, State.withHost, ← hs]

/-- POLL ends with the transaction. -/
theorem Polling.leads (hp : Polling c u N v₀ ls s) (ht : Transaction u N v₀ r) (hn : n < ls.length + 1) :
    Leads n (fun t => ∃ g, Quiet c u (r.unit u) ⟨ls, some (.reg8 (statusByte (r.unit u))), g⟩ t) s := by
  have hidle : (r.unit u).st ≠ .busy := by
    rw [ht.done]
    nofun
  refine Waits.leads (P := Polling c u N v₀ ls) ?_ hp
  refine ⟨fun s hs => ⟨hs.toCalm, by rwa [hs.script]⟩, fun s hs => ?_, fun s t w hs hturn => ?_, fun s hs => ?_⟩
  · exact ⟨hs.toCalm.popTurn, hs.cfg, hs.script, hs.underway.of_same ⟨rfl, rfl, rfl, rfl, rfl, rfl⟩⟩
  · obtain ⟨hcfg, -, hhost, -⟩ := unitTurn_frame hturn
    exact ⟨hs.toCalm.unitTurn hturn, hcfg.trans hs.cfg, hhost ▸ hs.script,
      hs.underway.unitTurn ht hturn hs.inv.config⟩
  · have hturn := hostTurn_poll hs.inv.config hs.script
    rcases hs.underway.cases ht with hb | hr
    · rw [hb, if_neg nofun] at hturn
      refine ⟨_, hturn, .inr ⟨⟨hs.toCalm.hostTurn hturn rfl, hs.cfg, hs.script, ?_⟩, ⟨_, rfl⟩, u, hb⟩⟩
      exact hs.underway.of_same (answering_same _ s)
    · rw [hr, ht.done, if_pos rfl] at hturn
      have hquiet : Quiet c u (r.unit u) s.host s := ⟨hs.toCalm, hs.cfg, hr, hidle, rfl⟩
      exact ⟨_, hturn, .inl (.here ⟨_, hquiet.withHost _⟩)⟩

/-! ## From the input to the end of the transaction -/

theorem startUnit_frame (u : UnitId) (s : State) :
    (startUnit u s).cfg = s.cfg ∧ (startUnit u s).turns = s.turns ∧ (startUnit u s).host = s.host := by
  by_cases hb : (s.unit u).st = .busy
  · rw [startUnit_busy hb]
    exact ⟨rfl, rfl, rfl⟩
  · cases u
    · rw [startUnit_enc hb]
      exact ⟨rfl, rfl, rfl⟩
    · rw [startUnit_dec hb]
      exact ⟨rfl, rfl, rfl⟩

/-- `Completes c u y S`: whenever unit `u` is started on the input `y`, its turns lead to DONE, and it then satisfies `S`. -/
def Completes (c : Config) (u : UnitId) (y : List (BitVec 8)) (S : CodecUnit → Prop) : Prop :=
  ∀ b, Inv b → b.cfg = c → (b.unit u).st ≠ .busy → inputOf b u = y →
    ∃ N r, Transaction u N (startUnit u b) r ∧ S (r.unit u)

/-- The expansion, up to its last line: the unit has completed its transaction on the input. -/
theorem Quiet.transact {S : CodecUnit → Prop} (hq : Quiet c u x ⟨expansion u y l ++ rest, a, g⟩ s)
    (hy : y.length < 2 ^ ilenWidth c u) (hS : Completes c u y S) :
    Leads rest.length
      (fun t => ∃ x g, S x ∧ x.st = .done ∧ Quiet c u x ⟨l :: rest, some (.reg8 (statusByte x)), g⟩ t) s := by
  refine (hq.writeInput hy).trans fun s hs => hs.leads (by simp; omega) fun s hs => ⟨_, hs.writeCtrl, ?_⟩
  have hb := hs.withHost ⟨.poll u :: l :: rest, a, g⟩
  obtain ⟨N, r, ht, hSr⟩ := hS _ hb.inv hb.cfg (hb.unit ▸ hb.idle) (inputOf_of_withInput hb.unit)
  obtain ⟨hcfg, hturns, hhost⟩ := startUnit_frame u (s.withHost ⟨.poll u :: l :: rest, a, g⟩)
  have hp : Polling c u N _ (l :: rest) (startUnit u (s.withHost ⟨.poll u :: l :: rest, a, g⟩)) :=
    ⟨hs.toCalm.hostTurn hs.writeCtrl hturns, hcfg.trans hb.cfg, congrArg HostSide.script hhost, .start ..⟩
  exact (hp.leads ht (by simp)).trans fun t ⟨g, hg⟩ => .here ⟨_, g, hSr, ht.done, hg⟩

/-! ## The result -/

theorem Memory.lt_of_read {m : Memory} {k : Nat} {e : BitVec 8} (hm : m.within k = true) (h : m.read i = some e) :
    i < k := by
  induction m with
  | nil => cases h
  | cons d m ih =>
    obtain ⟨j, d⟩ := d
    simp only [Memory.within, List.all_cons, Bool.and_eq_true, decide_eq_true_eq] at hm
    rw [Memory.read] at h
    split_ifs at h with hj
    · exact hj ▸ hm.1
    · exact ih hm.2 h

theorem Inv.obufWithin (hi : Inv s) (u : UnitId) : (s.unit u).obuf.within (obufSize s.cfg u) = true := by
  cases u
  · exact hi.enc.obufWithin
  · exact hi.dec.obufWithin

/-- `HoldsResult x y`: the unit is DONE with the result `y` (R146). -/
structure HoldsResult (x : CodecUnit) (y : List (BitVec 8)) : Prop where
  done : x.st = .done
  olen : x.olen = y.length
  output : holdsOutput x y

/-- The host reads the elements that it has not read yet, and then has its result. -/
theorem Quiet.takeAll {ys zs : List (BitVec 8)}
    (hq : Quiet c u x ⟨(List.range' ys.length zs.length).map (Line.take u) ++ .deliver u :: rest, a, ys⟩ s)
    (hx : HoldsResult x (ys ++ zs)) :
    Leads rest.length (fun t => t.host = ⟨rest, some (resultOf u (ys ++ zs)), ys ++ zs⟩) s := by
  induction zs generalizing ys a s with
  | nil =>
    rw [List.append_nil]
    refine hq.leads (by simp) fun s hs => ?_
    obtain ⟨t, hturn, ht⟩ := Quiet.deliver hs
    exact ⟨t, hturn, .here ht⟩
  | cons z zs ih =>
    have hread : x.obuf.read ys.length = some z := by
      rw [hx.output _ (by simp), List.getElem?_append_right le_rfl, Nat.sub_self]
      rfl
    have hlen : (ys ++ [z]).length = ys.length + 1 := List.length_append
    rw [List.length_cons, List.range'_succ, List.map_cons, ← hlen] at hq
    rw [List.append_cons] at hx ⊢
    refine hq.leads (by simp; omega) fun s hs => ?_
    have hfits := Memory.lt_of_read (hs.inv.obufWithin u) (hs.unit ▸ hread)
    obtain ⟨t, hturn, ht⟩ := Quiet.take hs (hs.cfg ▸ hfits) hx.done (by rw [hx.olen]; simp) hread
    exact ⟨t, hturn, ih ht hx⟩

/-- The host reads the result of a unit that is DONE. -/
theorem Quiet.readResult (hq : Quiet c u x ⟨.gather u :: rest, a, g⟩ s) (hx : HoldsResult x y) :
    Leads rest.length (fun t => t.host = ⟨rest, some (resultOf u y), y⟩) s := by
  refine hq.leads (by simp) fun s hs => ?_
  obtain ⟨t, hturn, ht⟩ := hs.gather
  rw [hx.olen, List.range_eq_range'] at ht
  exact ⟨t, hturn, Quiet.takeAll (ys := []) ht hx⟩

/-! ## ENCODE (R151) -/

theorem completes_enc (c : Config) (x : List Byte) : Completes c .enc x (HoldsResult · (codecEncode c x)) := by
  rintro b hi rfl hb rfl
  obtain ⟨v₀, hstart, hbusy, r, hrun, hdone, -, holen, hout, -⟩ := encTransactionComputesEncode b hi hb
  cases hstart.symm.trans (exec_encStart hi.config)
  exact ⟨_, r, ⟨hbusy, hrun, hdone⟩, hdone, holen, hout⟩

/-- The host's state right after a pseudo-operation. -/
theorem quiet_pushLines (hi : Inv s) (hb : (s.unit u).st ≠ .busy) (hr : .reset ∉ s.turns) (ls : List Line) :
    Quiet s.cfg u (s.unit u) ⟨ls ++ s.host.script, s.host.answer, s.host.gathered⟩ (s.pushLines ls) :=
  ⟨⟨(ChangesCore.of_same (pushLines_same ls s)).inv hi, hr⟩, rfl, by cases u <;> rfl, hb, rfl⟩

/-- Settles O44: the expansion leads to the end of a transaction of ENC on `x` (`Quiet.transact`), whose result the host
then reads (`Quiet.readResult`). -/
theorem encodePseudoOperationDelivers : Obligations.EncodePseudoOperationDelivers := by
  intro s x hi hb hr hx
  have hq := quiet_pushLines (u := .enc) hi hb hr (expansion .enc x (.gather .enc))
  have hleads := (hq.transact hx (completes_enc s.cfg x)).trans
    fun t ⟨_, _, hres, _, ht⟩ => ht.readResult hres
  obtain ⟨k, r, hrun, hhost, hlong⟩ := hleads.run
  exact ⟨_, k, r, exec_pEncode hi.config hx, hrun, hhost, hlong⟩

/-! ## DECODE (R152) -/

/-- `HoldsOutcome x o`: the unit has the error or holds the result `o`. -/
def HoldsOutcome (x : CodecUnit) : Except DecErr (List Byte) → Prop
  | .ok y => x.err = none ∧ HoldsResult x y
  | .error e => x.err = some e

theorem completes_dec (c : Config) (x : List Symbol) : Completes c .dec x (HoldsOutcome · (codecDecode c x)) := by
  rintro b hi rfl hb rfl
  obtain ⟨v₀, hstart, hbusy, r, hrun, hdone, herr, hok, -⟩ := decTransactionComputesDecode b hi hb
  cases hstart.symm.trans (exec_decStart hi.config)
  refine ⟨_, r, ⟨hbusy, hrun, hdone⟩, ?_⟩
  cases h : codecDecode b.cfg (inputOf b .dec) with
  | error e => exact (herr e h).1
  | ok y =>
    obtain ⟨hnone, holen, hout⟩ := hok y h
    exact ⟨hnone, hdone, holen, hout⟩

theorem errOfBits_statusByte (x : CodecUnit) : errOfBits (slice 2 2 (statusByte x)) = x.err := by
  rw [(slices_statusByte x).2.1, errOfBits_errBits]

theorem judgeThen_of_error {e : DecErr} (hs : s.host.answer = some (.reg8 (statusByte x))) (he : x.err = some e) :
    judgeThen s = s.answering (.failed e) := by
  simp only [judgeThen, hs, errOfBits_statusByte, he]

theorem judgeThen_of_ok (hs : s.host.answer = some (.reg8 (statusByte x))) (he : x.err = none) :
    judgeThen s = s.pushLines [.gather .dec] := by
  simp only [judgeThen, hs, errOfBits_statusByte, he]

/-- The test of DECODE on the status that ended the POLL. -/
theorem Quiet.hostTurn_judge (hq : Quiet c u x ⟨.judge :: ls, a, g⟩ s) :
    hostTurn s = .next (judgeThen (s.withHost ⟨ls, a, g⟩)) :=
  (hostTurn_of_line hq.host).trans (runLine_of_no_access (s := s.withHost _) hq.inv.config rfl)

/-- What DECODE answers for the outcome of `decode`. -/
def decodeAnswer : Except DecErr (List Byte) → Answer
  | .ok y => .decoded y
  | .error e => .failed e

/-- The host tells the outcome from the status, and reads the result if there is one. -/
theorem Quiet.readOutcome {o : Except DecErr (List Byte)}
    (hq : Quiet c .dec x ⟨.judge :: rest, some (.reg8 (statusByte x)), g⟩ s) (hx : HoldsOutcome x o) :
    Leads rest.length (fun t => t.host.script = rest ∧ t.host.answer = some (decodeAnswer o)) s := by
  refine hq.leads (by simp) fun s hs => ⟨_, hs.hostTurn_judge, ?_⟩
  cases o with
  | error e =>
    rw [judgeThen_of_error rfl hx]
    exact .here ⟨rfl, rfl⟩
  | ok y =>
    obtain ⟨hnone, hres⟩ := hx
    rw [judgeThen_of_ok rfl hnone]
    have hgather := hs.withHost ⟨.gather .dec :: rest, some (.reg8 (statusByte x)), g⟩
    exact (hgather.readResult hres).trans fun t ht => .here (by rw [ht]; exact ⟨rfl, rfl⟩)

/-- Settles O45: the expansion leads to the end of a transaction of DEC on `x` (`Quiet.transact`), whose outcome the host
then reads (`Quiet.readOutcome`). -/
theorem decodePseudoOperationDelivers : Obligations.DecodePseudoOperationDelivers := by
  intro s x hi hb hr hx
  have hq := quiet_pushLines (u := .dec) hi hb hr (expansion .dec x .judge)
  have hleads := (hq.transact hx (completes_dec s.cfg x)).trans
    fun t ⟨_, _, hout, _, ht⟩ => ht.readOutcome hout
  obtain ⟨k, r, hrun, ⟨hscript, hanswer⟩, hlong⟩ := hleads.run
  refine ⟨_, k, r, exec_pDecode hi.config hx, hrun, hscript, hanswer.trans ?_, hlong⟩
  cases codecDecode s.cfg x <;> rfl

end Sys2Proof.Machine
end

section
/-! SUPPORT. A step is the meaning of the operation that its code decodes to (44_sequencing_and_access.md R157;
43_host_interface.md R150): the agent at its turn, and the line of the host's script. -/

namespace Sys2Proof.Machine

variable {s : State} {u : UnitId} {l : Line} {ls : List Line} {c : Code} {i : Instr}

/-- The host at its turn takes the first line of its script. -/
theorem hostTurn_of_script (hs : s.host.script = l :: ls) :
    hostTurn s = runLine l (s.withHost { s.host with script := ls }) := by
  rw [hostTurn, hs]
  rfl

/-- A line whose access decodes to an operation: its meaning, then what the host does with the answer. -/
theorem runLine_of_instr (hl : lineCode l = some c) (hm : hostMayIssue c = true) (hd : decode c = .ok (.instr i)) :
    runLine l s = mapNext (lineThen l) (exec i s) := by
  rw [runLine, hl]
  simp only [hm, if_true, runCode_instr hd]
  cases exec i s <;> rfl

/-- With a line that is an operation the host does nothing more. -/
theorem mapNext_lineThen_op (c : Code) (r : Res) : mapNext (lineThen (.op c)) r = r := by cases r <;> rfl

theorem step_of_host_line (ha : s.nextAgent = .host) (hs : s.host.script = l :: ls) :
    step s = runLine l (s.popTurn.withHost { s.host with script := ls }) := by
  rw [step, ha]
  exact hostTurn_of_script (s := s.popTurn) hs

/-- Settles O46: a BUSY unit at its turn runs what it fetches (`unitTurn_of_fetch`), the host the first line of its script
(`step_of_host_line`), which makes an access (`runLine_of_instr`) or none (`runLine_of_no_access`). -/
theorem stepRunsTheDecodedOperation : Obligations.StepRunsTheDecodedOperation := by
  refine ⟨fun s u c i ha hb hf hd => ?_, fun s c ls i ha hs hm hd => ?_, fun s l c ls i ha hs hl hm hd => ?_,
    fun s l ls hw ha hs hl => ?_⟩
  · have hstep : step s = unitTurn u s.popTurn := by
      rw [step, ha]
      cases u <;> rfl
    rw [hstep]
    exact unitTurn_of_fetch (by rwa [State.popTurn_unit]) hf hd
  · rw [step_of_host_line ha hs, runLine_of_instr rfl hm hd]
    exact mapNext_lineThen_op c _
  · rw [step_of_host_line ha hs]
    exact runLine_of_instr hl hm hd
  · rw [step_of_host_line ha hs]
    exact runLine_of_no_access hw hl

end Sys2Proof.Machine
end

section
/-! SUPPORT. A unit step that is not enabled is a fault (44_sequencing_and_access.md R157; log entry 7). -/

namespace Sys2Proof.Machine

variable {s t : State} {n : Nat} {out : List (BitVec 8)} {b p k last : Bool} {k0 k1 k2 k3 : SymClass}

theorem encGroup_of_not_enabled (hw : s.cfg.WF) (hb : b = false) : encGroup b n out s = .fault .stepNotEnabled := by
  rw [encGroup, underConfig_of_wf hw, hb]
  rfl

theorem decGroup_of_not_enabled (hw : s.cfg.WF) (hb : b = false) : decGroup b out p k s = .fault .stepNotEnabled := by
  rw [decGroup, underConfig_of_wf hw, hb]
  rfl

theorem finishing_of_not_enabled (hw : s.cfg.WF) (hb : b = false) : finishing b s t = .fault .stepNotEnabled := by
  rw [finishing, underConfig_of_wf hw, hb]
  rfl

/-- When DEC3 and DEC2 are enabled (42_decoder.md R118, R119). -/
theorem lastGroupStep_enabled_iff :
    (decGroupEnabled s && lastGroup s) = true ↔
      s.dec.st = .busy ∧ s.dec.ilen % 4 = 0 ∧ s.dec.rp + 4 = s.dec.ilen := by
  refine ⟨fun h => ?_, fun ⟨hb, h4, hl⟩ => lastGroupStep_enabled hb h4 hl⟩
  rw [Bool.and_eq_true, decGroupEnabled_iff, lastGroup_iff] at h
  obtain ⟨⟨hb, h4, -⟩, hl⟩ := h
  exact ⟨hb, h4, hl⟩

/-- When DEC.GRPERR is enabled (42_decoder.md R120). -/
theorem decGrperr_enabled_iff :
    (decGroupEnabled s && decide (lastGroup s = last) && decide (selectGroup k0 k1 k2 k3 last = .grperr)) = true ↔
      s.dec.st = .busy ∧ s.dec.ilen % 4 = 0 ∧ s.dec.rp < s.dec.ilen ∧ (last = true ↔ s.dec.rp + 4 = s.dec.ilen) ∧
        selectGroup k0 k1 k2 k3 last = .grperr := by
  have hlast : lastGroup s = last ↔ (last = true ↔ s.dec.rp + 4 = s.dec.ilen) := by
    rw [eq_comm, Bool.eq_iff_iff, lastGroup_iff]
  simp only [Bool.and_eq_true, decide_eq_true_eq, decGroupEnabled_iff, hlast, and_assoc]

/-- Settles O32: each step hands its condition to the group or finishing operation of its unit, which faults without it. -/
theorem stepThatIsNotEnabledFaults : Obligations.StepThatIsNotEnabledFaults := by
  rintro s i hw (⟨⟨b0, b1, b2, rfl⟩, h⟩ | ⟨⟨b0, b1, rfl⟩, h⟩ | ⟨⟨b0, rfl⟩, h⟩ | ⟨rfl, h⟩ | ⟨rfl, h⟩ |
    ⟨⟨v0, v1, v2, v3, rfl⟩, h⟩ | ⟨⟨v0, v1, v2, rfl⟩ | ⟨v0, v1, rfl⟩, h⟩ | ⟨k0, k1, k2, k3, last, rfl, h⟩ | ⟨rfl, h⟩)
  · exact encGroup_of_not_enabled hw (decide_eq_false h)
  · exact encGroup_of_not_enabled hw (decide_eq_false h)
  · exact encGroup_of_not_enabled hw (decide_eq_false h)
  · exact finishing_of_not_enabled hw (decide_eq_false h)
  · exact finishing_of_not_enabled hw (decide_eq_false h)
  · exact decGroup_of_not_enabled hw (decide_eq_false h)
  · exact decGroup_of_not_enabled hw (Bool.eq_false_iff.mpr (mt lastGroupStep_enabled_iff.mp h))
  · exact decGroup_of_not_enabled hw (Bool.eq_false_iff.mpr (mt lastGroupStep_enabled_iff.mp h))
  · exact decGroup_of_not_enabled hw (Bool.eq_false_iff.mpr (mt decGrperr_enabled_iff.mp h))
  · exact finishing_of_not_enabled hw (decide_eq_false h)

end Sys2Proof.Machine
end

section
/-! SUPPORT. Under the invariant no step faults (44_sequencing_and_access.md R157, R158; 41_encoder.md R96; 42_decoder.md
R122): a unit always has its turn, and what the host may issue is no step of a unit, which alone can fault. -/

namespace Sys2Proof.Machine

variable {s : State} {u : UnitId} {p : Place} {r : Res} {f : Fault} {l : Line} {a : Agent} {c : Code} {i : Instr}

/-! ## The host -/

theorem underConfig_ne_fault (h : r ≠ .fault f) : underConfig s r ≠ .fault f := by
  rw [underConfig]
  split_ifs
  · exact h
  · nofun

theorem hostAccess_ne_fault (h : r ≠ .fault f) : hostAccess u p s r ≠ .fault f := by
  refine underConfig_ne_fault ?_
  split_ifs
  · exact h
  · nofun

/-- No operation but the steps of the units faults, whatever the state. -/
theorem exec_ne_fault (hi : ∀ u, ¬ UnitStep u i) : exec i s ≠ .fault f := by
  cases i
  case enc3 | enc2 | enc1 | encFinish => exact absurd (by constructor) (hi .enc)
  case decLenfail | dec4 | dec3 | dec2 | decGrperr | decFinish => exact absurd (by constructor) (hi .dec)
  case hWrIbuf | hRdObuf | hRdIbuf => exact hostAccess_ne_fault nofun
  case hWrIlen | pEncode | pDecode =>
    refine underConfig_ne_fault ?_
    split_ifs <;> nofun
  all_goals exact underConfig_ne_fault nofun

/-- What the host may issue does not decode to a step of a unit (43_host_interface.md R140). -/
theorem not_unitStep_of_hostMayIssue (hm : hostMayIssue c = true) (hd : decode c = .ok (.instr i)) :
    ¬ UnitStep u i := by
  intro hi
  by_cases hc : ∃ w b, c = .ctrl8 w b
  · obtain ⟨w, b, rfl⟩ := hc
    rw [decode] at hd
    unfold decodeCtrl8 at hd
    split_ifs at hd <;> cases hd
    cases w <;> cases hi
  · rw [← encodingADecodedOperation c i hd fun w b h => hc ⟨w, b, h⟩] at hm
    cases hi <;> cases hm

theorem runCode_ne_fault (hm : hostMayIssue c = true) : runCode c s ≠ .fault f := by
  unfold runCode
  split
  · next hd => exact exec_ne_fault fun _ => not_unitStep_of_hostMayIssue hm hd
  · exact hostAccess_ne_fault nofun
  · exact hostAccess_ne_fault nofun
  · exact underConfig_ne_fault nofun

theorem runLine_ne_fault : runLine l s ≠ .fault f := by
  unfold runLine
  split
  · exact underConfig_ne_fault nofun
  · split_ifs with hm
    · split
      · nofun
      · next hr => exact absurd hr (runCode_ne_fault hm)
      · nofun
    · nofun

theorem hostTurn_ne_fault : hostTurn s ≠ .fault f := by
  unfold hostTurn
  split
  · exact underConfig_ne_fault nofun
  · exact runLine_ne_fault

/-! ## The units and reset -/

theorem Inv.popTurn (hi : Inv s) : Inv s.popTurn :=
  ChangesCore.inv (s := s) (.of_same ⟨rfl, rfl, rfl, rfl, rfl, rfl⟩) hi

theorem turn_of_inv (hi : Inv s) (ha : a ≠ .host) : ∃ t, turn a s = .next t := by
  cases a with
  | host => exact absurd rfl ha
  | enc => exact (unitTurn_of_inv hi .enc).imp fun _ => And.left
  | dec => exact (unitTurn_of_inv hi .dec).imp fun _ => And.left
  | reset => exact ⟨_, underConfig_of_wf hi.config⟩

/-- Settles O52: a turn of the host does not fault in any state, and every other turn has a next state. -/
theorem reachableStepsNeverFault : Obligations.ReachableStepsNeverFault := by
  intro s hi
  have hnext (ha : s.nextAgent ≠ .host) : ∃ t, step s = .next t := turn_of_inv hi.popTurn ha
  refine ⟨fun f => ?_, hnext⟩
  by_cases ha : s.nextAgent = .host
  · rw [step, ha]
    exact hostTurn_ne_fault
  · obtain ⟨t, ht⟩ := hnext ha
    rw [ht]
    nofun

end Sys2Proof.Machine
end

section
/-! SUPPORT. Which operation can raise which error (60_exceptions.md R163, R165): only a completion of DEC puts an error into
an `ERR`; START and the completion of ENC clear it, and everything else leaves it. -/

namespace Sys2Proof.Machine

variable {s t : State} {i : Instr} {u : UnitId}

/-- An operation that does not belong to a unit leaves it as it is. -/
theorem exec_unit_of_ne (h : exec i s = .next t) (hu : unitOf i ≠ some u) : t.unit u = s.unit u := by
  rw [← (exec_beside i u hu).frame h, withUnitOf_unit_same]

/-- START clears the error of the unit that it starts; a BUSY one it leaves as it is. -/
theorem startUnit_err (u : UnitId) (s : State) :
    ((startUnit u s).unit u).err = (s.unit u).err ∨ ((startUnit u s).unit u).err = none := by
  by_cases hb : (s.unit u).st = .busy
  · rw [startUnit_busy hb]
    exact .inl rfl
  · cases u
    · rw [startUnit_enc hb]
      exact .inr rfl
    · rw [startUnit_dec hb]
      exact .inr rfl

/-- No operation but DEC.LENFAIL and DEC.FINISH raises an error, of whichever unit. -/
theorem exec_err (h : exec i s = .next t) (hl : i ≠ .decLenfail) (hf : i ≠ .decFinish) (u : UnitId) :
    (t.unit u).err = (s.unit u).err ∨ (t.unit u).err = none := by
  by_cases hu : unitOf i = some u
  · cases i
    case decLenfail => exact absurd rfl hl
    case decFinish => exact absurd rfl hf
    case encStart | decStart =>
      cases hu
      obtain ⟨-, h⟩ := underConfig_next.mp h
      cases h
      exact startUnit_err ..
    case hStart =>
      cases hu
      obtain ⟨-, h⟩ := underConfig_next.mp h
      split_ifs at h <;> cases h
      · exact startUnit_err ..
      · exact .inl rfl
    case enc3 | enc2 | enc1 =>
      cases hu
      obtain ⟨-, -, -, -, rfl⟩ := encGroup_next.mp h
      exact .inl rfl
    case dec4 | dec3 | dec2 | decGrperr =>
      cases hu
      obtain ⟨-, -, -, -, rfl⟩ := decGroup_next.mp h
      exact .inl rfl
    case encFinish =>
      cases hu
      obtain ⟨-, -, rfl⟩ := finishing_next.mp h
      exact .inr rfl
    case hWrIbuf =>
      cases hu
      obtain ⟨-, -, h⟩ := hostAccess_next.mp h
      split_ifs at h <;> cases h
      · exact .inl rfl
      · exact .inl (by rw [State.setUnit_unit])
    case hWrIlen =>
      cases hu
      obtain ⟨-, h⟩ := underConfig_next.mp h
      split_ifs at h <;> cases h
      · exact .inl rfl
      · exact .inl (by rw [State.setUnit_unit])
    case hRdStatus | hRdIlen =>
      obtain ⟨-, rfl⟩ := answerWith_next.mp h
      exact .inl (by rw [State.answering_unit])
    case hRdIbuf =>
      obtain ⟨-, -, h⟩ := hostAccess_next.mp h
      cases h
      exact .inl (by rw [State.answering_unit])
    case hRdOlen =>
      obtain ⟨-, h⟩ := underConfig_next.mp h
      split_ifs at h <;> cases h <;> exact .inl (by simp)
    case hRdObuf =>
      obtain ⟨-, -, h⟩ := hostAccess_next.mp h
      split at h <;> cases h <;> exact .inl (by simp)
    all_goals cases hu
  · exact .inl (by rw [exec_unit_of_ne h hu])

/-- The outcomes of DEC.FINISH in `DEC.ERR` (42_decoder.md R121). -/
theorem decFinished_err (s : State) :
    (decFinished s).dec.err = none ∨ (decFinished s).dec.err = some .misplacedPadding ∨
      (decFinished s).dec.err = some .unknownSymbol := by
  cases hp : s.paderr
  · cases hk : s.unkerr
    · exact .inl (by rw [decFinished_of_no_error hp hk, CodecUnit.finished_err])
    · exact .inr (.inr (by rw [decFinished_of_unkerr hp hk]; rfl))
  · exact .inr (.inl (by rw [decFinished_of_paderr hp]; rfl))

/-- Settles O58: the two completions of DEC say what they raise, and no other operation raises an error. -/
theorem onlyTwoOperationsRaise : Obligations.OnlyTwoOperationsRaise := by
  intro i s t h
  by_cases hl : i = .decLenfail
  · subst hl
    obtain ⟨-, -, rfl⟩ := finishing_next.mp h
    exact ⟨.inl rfl, .inr (.inr (.inl ⟨rfl, rfl⟩))⟩
  by_cases hf : i = .decFinish
  · subst hf
    have henc : t.enc = s.enc := exec_unit_of_ne (u := .enc) h nofun
    obtain ⟨-, -, rfl⟩ := exec_decFinish_next.mp h
    exact ⟨.inl (congrArg _ henc), .inr ((decFinished_err s).imp_right fun he => .inr ⟨rfl, he⟩)⟩
  have herr := exec_err h hl hf
  exact ⟨herr .enc, (herr .dec).imp_right .inl⟩

end Sys2Proof.Machine
end

section
/-! SUPPORT. Bounded progress and reset (70_reset_and_hazards.md R180, R191, R193): the turns that a BUSY unit has still to
take go down by one or more with each of its turns, and no step but reset leads back to IDLE; the turn of reset, in any
state. -/

namespace Sys2Proof.Machine

variable {s t : State} {x y : CodecUnit} {u w : UnitId}

/-! ## The turns that are left -/

/-- The turns that a unit has still to take until it is DONE (R191; 41_encoder.md R102; 42_decoder.md R128): the groups that
it has not read and its completion, or DEC.LENFAIL alone. -/
def turnsLeft (u : UnitId) (x : CodecUnit) : Nat :=
  if x.st = .busy then
    match u with
    | .enc => encSteps (x.ilen - x.rp)
    | .dec => if x.ilen % 4 = 0 then (x.ilen - x.rp) / 4 + 1 else 1
  else 0

theorem turnsLeft_enc_of_busy (h : x.st = .busy) : turnsLeft .enc x = (x.ilen - x.rp + 2) / 3 + 1 := if_pos h

theorem turnsLeft_dec_of_busy (h : x.st = .busy) (h4 : x.ilen % 4 = 0) :
    turnsLeft .dec x = (x.ilen - x.rp) / 4 + 1 := (if_pos h).trans (if_pos h4)

theorem turnsLeft_dec_of_badLength (h : x.st = .busy) (h4 : x.ilen % 4 ≠ 0) : turnsLeft .dec x = 1 :=
  (if_pos h).trans (if_neg h4)

theorem turnsLeft_pos (u : UnitId) (h : x.st = .busy) : 0 < turnsLeft u x := by
  cases u with
  | enc =>
    rw [turnsLeft_enc_of_busy h]
    exact Nat.succ_pos _
  | dec =>
    by_cases h4 : x.ilen % 4 = 0
    · rw [turnsLeft_dec_of_busy h h4]
      exact Nat.succ_pos _
    · rw [turnsLeft_dec_of_badLength h h4]
      exact Nat.one_pos

/-- Completion leaves no turn to take. -/
theorem turnsLeft_finished_lt (u : UnitId) (h : x.st = .busy) (n : Nat) (e : Option DecErr) :
    turnsLeft u (x.finished n e) < turnsLeft u x := turnsLeft_pos u h

theorem turnsLeft_enc_le (x : CodecUnit) : turnsLeft .enc x ≤ encSteps x.ilen := by
  by_cases h : x.st = .busy
  · rw [turnsLeft_enc_of_busy h, encSteps]
    omega
  · exact (if_neg h).trans_le (Nat.zero_le _)

theorem turnsLeft_dec_le (x : CodecUnit) : turnsLeft .dec x ≤ decSteps x.ilen := by
  by_cases h : x.st = .busy
  · by_cases h4 : x.ilen % 4 = 0
    · rw [turnsLeft_dec_of_busy h h4, decSteps, if_pos h4]
      omega
    · rw [turnsLeft_dec_of_badLength h h4, decSteps, if_neg h4]
  · exact (if_neg h).trans_le (Nat.zero_le _)

/-! ## One turn of a BUSY unit -/

/-- A group of ENC is three bytes, or all that is left, so it takes one from the groups left. -/
theorem unitTurn_enc_turnsLeft (hi : Inv s) (hb : s.enc.st = .busy) :
    ∃ t, unitTurn .enc s = .next t ∧ turnsLeft .enc t.enc < turnsLeft .enc s.enc := by
  rcases Nat.lt_or_eq_of_le (hi.enc.busyRead hb).1 with hlt | hl
  · refine ⟨_, turn_enc_of_lt hi hb hlt, ?_⟩
    rw [turnsLeft_enc_of_busy (x := s.enc.moved _ _) hb, turnsLeft_enc_of_busy hb, CodecUnit.moved_ilen,
      CodecUnit.moved_rp, nextGroupSize]
    omega
  · exact ⟨_, (turn_enc_of_none_left hb hl).trans (exec_encFinish_next.mpr ⟨hi.config, ⟨hb, hl⟩, rfl⟩),
      turnsLeft_finished_lt .enc hb _ _⟩

/-- On whole groups DEC takes one of them or completes; on a bad length its turn is DEC.LENFAIL. -/
theorem unitTurn_dec_turnsLeft (hi : Inv s) (hb : s.dec.st = .busy) :
    ∃ t, unitTurn .dec s = .next t ∧ turnsLeft .dec t.dec < turnsLeft .dec s.dec := by
  by_cases h4 : s.dec.ilen % 4 = 0
  · obtain ⟨hle, hmod⟩ := hi.dec.busyRead hb h4
    rcases Nat.lt_or_eq_of_le hle with hlt | hl
    · refine ⟨_, turn_dec_group hi hb h4 hlt, ?_⟩
      rw [turnsLeft_dec_of_busy (x := s.dec.moved _ _) hb h4, turnsLeft_dec_of_busy hb h4, CodecUnit.moved_ilen,
        CodecUnit.moved_rp]
      omega
    · obtain ⟨n, e, hd⟩ := decFinished_eq s
      refine ⟨_, (turn_dec_of_none_left hb h4 hl).trans (exec_decFinish_next.mpr ⟨hi.config, ⟨hb, h4, hl⟩, rfl⟩), ?_⟩
      rw [hd]
      exact turnsLeft_finished_lt .dec hb n e
  · exact ⟨_, (turn_dec_of_badLength hb h4).trans (exec_decLenfail hi.config hb h4), turnsLeft_finished_lt .dec hb _ _⟩

/-- The turns that both units have still to take. -/
def allTurnsLeft (s : State) : Nat := turnsLeft .enc s.enc + turnsLeft .dec s.dec

theorem allTurnsLeft_le (s : State) : allTurnsLeft s ≤ encSteps s.enc.ilen + decSteps s.dec.ilen :=
  Nat.add_le_add (turnsLeft_enc_le _) (turnsLeft_dec_le _)

/-- The turn of a BUSY unit leaves the other unit's turns as they are. -/
theorem unitTurn_allTurnsLeft (hi : Inv s) (hb : (s.unit w).st = .busy) :
    ∃ t, unitTurn w s = .next t ∧ allTurnsLeft t < allTurnsLeft s := by
  cases w with
  | enc =>
    obtain ⟨t, ht, hlt⟩ := unitTurn_enc_turnsLeft hi hb
    obtain ⟨-, -, -, -, hother⟩ := unitTurn_frame ht
    have hdec : t.dec = s.dec := hother .dec (by decide)
    exact ⟨t, ht, by rw [allTurnsLeft, allTurnsLeft, hdec]; exact Nat.add_lt_add_right hlt _⟩
  | dec =>
    obtain ⟨t, ht, hlt⟩ := unitTurn_dec_turnsLeft hi hb
    obtain ⟨-, -, -, -, hother⟩ := unitTurn_frame ht
    have henc : t.enc = s.enc := hother .enc (by decide)
    exact ⟨t, ht, by rw [allTurnsLeft, allTurnsLeft, henc]; exact Nat.add_lt_add_left hlt _⟩

/-! ## The run until no unit is BUSY -/

/-- Once no turn is prescribed, a BUSY unit takes the step (log entry 1). -/
theorem step_of_turns_nil (hn : s.turns = []) :
    (∃ w, (s.unit w).st = .busy ∧ step s = unitTurn w s) ∨ ∀ u, (s.unit u).st ≠ .busy := by
  rw [step, popTurn_of_nil hn, State.nextAgent, hn]
  by_cases he : s.enc.st = .busy
  · exact .inl ⟨.enc, he, by rw [if_pos he, turn]⟩
  by_cases hd : s.dec.st = .busy
  · exact .inl ⟨.dec, hd, by rw [if_neg he, if_pos hd, turn]⟩
  exact .inr fun u => by cases u <;> assumption

/-- Only reset leads to IDLE (10_state.md R17). -/
theorem UnitChange.st_ne_idle (h : UnitChange x y) (hx : x.st ≠ .idle) : y.st ≠ .idle := by
  rcases h.st_cases with hy | ⟨-, hy⟩ | ⟨-, hy⟩ | ⟨-, hy⟩
  · rwa [hy]
  all_goals rw [hy]; nofun

/-- Each step takes one of the turns left, so they bound the steps until no unit is BUSY (R193). -/
theorem run_until_not_busy (hi : Inv s) (hn : s.turns = []) :
    ∃ k t, k ≤ allTurnsLeft s ∧ Sys2Proof.core.run k s = .next t ∧
      ∀ u, (State.unit t u).st ≠ .busy ∧ ((s.unit u).st ≠ .idle → (State.unit t u).st ≠ .idle) := by
  induction hm : allTurnsLeft s using Nat.strong_induction_on generalizing s with
  | _ m ih =>
    rcases step_of_turns_nil hn with ⟨w, hb, hstep⟩ | hidle
    · obtain ⟨v, hturn, hlt⟩ := unitTurn_allTurnsLeft hi hb
      obtain ⟨-, -, -, hturns, -⟩ := unitTurn_frame hturn
      have hcore := unitTurn_core hturn
      obtain ⟨k, t, hk, hrun, ht⟩ := ih _ (hm ▸ hlt) (hcore.inv hi) (hturns.trans hn) rfl
      refine ⟨k + 1, t, by omega, (core_run_succ (hstep.trans hturn) k).trans hrun, fun u => ?_⟩
      obtain ⟨hbusy, hidle⟩ := ht u
      exact ⟨hbusy, fun hu => hidle ((hcore.unit u).st_ne_idle hu)⟩
    · exact ⟨0, s, Nat.zero_le _, rfl, fun u => ⟨hidle u, id⟩⟩

theorem UnitSt.eq_done {st : UnitSt} (hb : st ≠ .busy) (hi : st ≠ .idle) : st = .done := by
  cases st with
  | idle => exact absurd rfl hi
  | busy => exact absurd rfl hb
  | done => rfl

/-- Settles O60: a BUSY unit takes each step until none is BUSY, one of the turns left at a time, and it does not go back to
IDLE. -/
theorem busyUnitsReachDone : Obligations.BusyUnitsReachDone := by
  intro s hi hn
  obtain ⟨k, t, hk, hrun, ht⟩ := run_until_not_busy hi hn
  have hdone (u : UnitId) (hb : (s.unit u).st = .busy) : (State.unit t u).st = .done := by
    obtain ⟨hbusy, hidle⟩ := ht u
    exact UnitSt.eq_done hbusy (hidle (hb ▸ nofun))
  exact ⟨k, t, hk.trans (allTurnsLeft_le s), hrun, (ht .enc).1, (ht .dec).1, hdone .enc, hdone .dec⟩

/-! ## Reset (R180) -/

theorem applyReset_unit (s : State) (u : UnitId) : (applyReset s).unit u = .reset := by cases u <;> rfl

/-- A unit that has been reset waits for START (R180). -/
theorem unitTurn_applyReset (hw : s.cfg.WF) (u : UnitId) : unitTurn u (applyReset s) = .next (applyReset s) :=
  unitTurn_of_not_busy hw (by rw [applyReset_unit]; nofun)

/-- Settles O59: each unit is `CodecUnit.reset`, which has written no element and is not BUSY. -/
theorem resetPutsBothUnitsInIdle : Obligations.ResetPutsBothUnitsInIdle := by
  refine fun s hw => ⟨applyReset s, underConfig_of_wf hw, fun u => ?_, rfl, rfl, rfl, unitTurn_applyReset hw .enc,
    unitTurn_applyReset hw .dec⟩
  rw [applyReset_unit]
  exact ⟨rfl, rfl, rfl, rfl, rfl, rfl, fun _ => ⟨rfl, rfl⟩⟩

end Sys2Proof.Machine
end
